-- ==== Sys2Proof/Word.lean ====
section
/-! DEFINITION. The word types of MorseKeyer CORE (00_scope.md R9: bit 0 is the least significant bit, all values unsigned). -/
namespace Sys2Proof

/-- A byte: an opcode, an operand byte, a character code, an element stream (R9). -/
abbrev Byte := BitVec 8

/-- A 16-bit register: MSG_LEN, CURSOR, CHARS_SENT (10_state.md R26 to R28). -/
abbrev Half := BitVec 16

/-- A 32-bit register or response value: UNIT, WPM (10_state.md R23, R24), the value of R70. -/
abbrev Word := BitVec 32

/-- A counter register of TICK_W bits, 24 ≤ TICK_W ≤ 64 (00_scope.md R8), held in its low TICK_W bits. -/
abbrev Counter := BitVec 64

end Sys2Proof
end

