-- ==== Sys2Proof/Syntax.lean ====
section
/-! DEFINITION. The ten commands of the block, one constructor per row of the opcode map (30_encoding.md R71). -/
namespace Sys2Proof

/-- A command with its operands as the frame spells them. Operand values that a command turns away (R75) are values
here too: the command's own rule answers them. -/
inductive Instr where
  /-- TICK, format N, opcode 0x01 (43_tick.md R115). -/
  | tick
  /-- CONFIGURE w, format W, opcode 0x02 (41_configure.md R95): a binary32 bit pattern. -/
  | configure (w : Word)
  /-- SEND "t", format S, opcode 0x03 (42_message.md R105); the length field n of R69 is the number of text bytes. -/
  | send (text : List Byte)
  /-- RESET, format N, opcode 0x04 (42_message.md R110). -/
  | reset
  /-- SET_PREAMBLE b, format B, opcode 0x05 (44_fields.md R155). -/
  | setPreamble (b : Byte)
  /-- SET_DUALFREQ b, format B, opcode 0x06 (44_fields.md R156). -/
  | setDualfreq (b : Byte)
  /-- SET_TXEN b, format B, opcode 0x07 (44_fields.md R157). -/
  | setTxen (b : Byte)
  /-- SET_REPEAT m, format B, opcode 0x08 (44_fields.md R158): whole minutes. -/
  | setRepeat (m : Byte)
  /-- READ r, format B, opcode 0x09 (44_fields.md R160): a register number. -/
  | read (r : Byte)
  /-- LOOKUP c, format B, opcode 0x0A (40_lookup.md R91): a character code. -/
  | lookup (c : Byte)
deriving DecidableEq, Repr

end Sys2Proof
end

