-- ==== Sys2Proof/WellFormed.lean ====
section
/-! DEFINITION. Which commands have a frame. -/
namespace Sys2Proof

/-- A command has a frame when its operands fit their fields. Every field but one has its exact width in the type;
the text of a SEND must be countable by the 16-bit length field, 0 ≤ n ≤ 65535 (30_encoding.md R69). -/
def Instr.wellFormed : Instr → Bool
  | .send text => decide (text.length ≤ 65535)
  | .tick | .configure _ | .reset | .setPreamble _ | .setDualfreq _ | .setTxen _ | .setRepeat _ | .read _
  | .lookup _ => true

end Sys2Proof
end

