-- ==== Sys2Proof/Decode.lean ====
section
/-! DEFINITION. Frames: the decoder (total, rejecting by name) and the encoder (30_encoding.md R65 to R75, R89). -/
namespace Sys2Proof

/-- The ten defined opcodes (30_encoding.md R71). -/
inductive Opcode where
  | tick | configure | send | reset | setPreamble | setDualfreq | setTxen | setRepeat | read | lookup
deriving DecidableEq, Repr

/-- Why a frame is no command (60_exceptions.md R173: the first two checks). -/
inductive DecodeError where
  /-- The delivered length is not the length of R72, or the frame is empty (30_encoding.md R73). -/
  | malformed
  /-- One byte, 0x00 or 0x0B to 0xFF (60_exceptions.md R172). -/
  | reservedOpcode (op : Byte)
deriving DecidableEq, Repr

/-- The opcode map (30_encoding.md R71); no other byte is an opcode. -/
def Opcode.ofByte (b : Byte) : Option Opcode :=
  if b = 0x01#8 then some .tick
  else if b = 0x02#8 then some .configure
  else if b = 0x03#8 then some .send
  else if b = 0x04#8 then some .reset
  else if b = 0x05#8 then some .setPreamble
  else if b = 0x06#8 then some .setDualfreq
  else if b = 0x07#8 then some .setTxen
  else if b = 0x08#8 then some .setRepeat
  else if b = 0x09#8 then some .read
  else if b = 0x0A#8 then some .lookup
  else none

/-- Byte 0 of a frame (30_encoding.md R71), for the encoder. -/
def Opcode.byte : Opcode → Byte
  | .tick => 0x01#8
  | .configure => 0x02#8
  | .send => 0x03#8
  | .reset => 0x04#8
  | .setPreamble => 0x05#8
  | .setDualfreq => 0x06#8
  | .setTxen => 0x07#8
  | .setRepeat => 0x08#8
  | .read => 0x09#8
  | .lookup => 0x0A#8

/-- A 32-bit field from its four bytes, least significant first (30_encoding.md R68, 20_memory.md R50). -/
def wordOfBytes (b0 b1 b2 b3 : Byte) : Word := b3 ++ b2 ++ b1 ++ b0

/-- The length field of format S, n = byte1 + 2^8·byte2 (30_encoding.md R69). -/
def lengthField (lo hi : Byte) : Nat := lo.toNat + 256 * hi.toNat

/-- Byte `k` of a 32-bit value, byte 0 the least significant (20_memory.md R50). -/
def byteOfWord (w : Word) (k : Nat) : Byte := w.extractLsb' (8 * k) 8

/-- The length a frame must have, read from its first bytes (30_encoding.md R72). None: there is no opcode, or
a SEND without its length field. A reserved opcode's frame is one byte long. -/
def expectedLength : List Byte → Option Nat
  | [] => none
  | op :: body =>
    match Opcode.ofByte op with
    | none | some .tick | some .reset => some 1
    | some .configure => some 5
    | some .send =>
      match body with
      | lo :: hi :: _ => some (3 + lengthField lo hi)
      | _ => none
    | some .setPreamble | some .setDualfreq | some .setTxen | some .setRepeat | some .read | some .lookup => some 2

/-- Format N: nothing follows the opcode (30_encoding.md R66). -/
def decodeN (i : Instr) : List Byte → Except DecodeError Instr
  | [] => .ok i
  | _ :: _ => .error .malformed

/-- Format B: one operand byte (30_encoding.md R67). -/
def decodeB (mk : Byte → Instr) : List Byte → Except DecodeError Instr
  | [b] => .ok (mk b)
  | _ => .error .malformed

/-- Format W: one 32-bit operand (30_encoding.md R68). -/
def decodeW (mk : Word → Instr) : List Byte → Except DecodeError Instr
  | [b0, b1, b2, b3] => .ok (mk (wordOfBytes b0 b1 b2 b3))
  | _ => .error .malformed

/-- Format S: a 16-bit length and that many text bytes (30_encoding.md R69). -/
def decodeS (mk : List Byte → Instr) : List Byte → Except DecodeError Instr
  | lo :: hi :: text => if text.length = lengthField lo hi then .ok (mk text) else .error .malformed
  | _ => .error .malformed

/-- The decoder: total on every sequence of bytes (30_encoding.md R72), and a function of the bytes alone (R89).
A wrong length comes before a reserved opcode (60_exceptions.md R173). -/
def decode : List Byte → Except DecodeError Instr
  | [] => .error .malformed
  | op :: body =>
    match Opcode.ofByte op with
    | none => match body with
      | [] => .error (.reservedOpcode op)
      | _ :: _ => .error .malformed
    | some .tick => decodeN .tick body
    | some .configure => decodeW .configure body
    | some .send => decodeS .send body
    | some .reset => decodeN .reset body
    | some .setPreamble => decodeB .setPreamble body
    | some .setDualfreq => decodeB .setDualfreq body
    | some .setTxen => decodeB .setTxen body
    | some .setRepeat => decodeB .setRepeat body
    | some .read => decodeB .read body
    | some .lookup => decodeB .lookup body

/-- The opcode of a command (30_encoding.md R71). -/
def Instr.opcode : Instr → Opcode
  | .tick => .tick
  | .configure _ => .configure
  | .send _ => .send
  | .reset => .reset
  | .setPreamble _ => .setPreamble
  | .setDualfreq _ => .setDualfreq
  | .setTxen _ => .setTxen
  | .setRepeat _ => .setRepeat
  | .read _ => .read
  | .lookup _ => .lookup

/-- The operand bytes of a command, in frame order (30_encoding.md R66 to R69). -/
def Instr.operandBytes : Instr → List Byte
  | .tick | .reset => []
  | .configure w => [byteOfWord w 0, byteOfWord w 1, byteOfWord w 2, byteOfWord w 3]
  | .send text => BitVec.ofNat 8 text.length :: BitVec.ofNat 8 (text.length / 256) :: text
  | .setPreamble b | .setDualfreq b | .setTxen b | .setRepeat b | .read b | .lookup b => [b]

/-- The encoder: the frame of a command. -/
def encode (i : Instr) : List Byte := i.opcode.byte :: i.operandBytes

/-- Byte `k` of an instruction whose bits are `w`, numbered as spec/opcode_table.json numbers them. -/
def tableByte (w k : Nat) : Byte := BitVec.ofNat 8 (w >>> (8 * k))

/-- The frame of an instruction of which `nbits` bits are given as `w` and every later bit is 0: as many bytes as
the opcode calls for (R72), and never fewer than the bits given. -/
def tableFrame (nbits w : Nat) : List Byte :=
  let v := w % 2 ^ nbits
  let need := (expectedLength [tableByte v 0, tableByte v 1, tableByte v 2]).getD 1
  (List.range (max need ((nbits + 7) / 8))).map (tableByte v)

/-- The command the decoder reads from an instruction's bits; none where it rejects them. -/
def decodeTableWord (nbits w : Nat) : Option Instr :=
  match decode (tableFrame nbits w) with
  | .ok i => some i
  | .error _ => none

end Sys2Proof
end

