-- ==== Sys2Proof/Config.lean ====
section
/-! DEFINITION. The implementation parameters of the block (00_scope.md R8), the default Code Table (30_encoding.md
R84), and the one value the spec leaves free. -/
namespace Sys2Proof

/-- The parameters of 00_scope.md R8. UNIT_NUM and MINUTE_TICKS are derived from TICK_HZ, and MAX_REPEAT_MIN is fixed. -/
structure Config where
  /-- TICK_HZ: ticks per second. -/
  tickHz : Nat
  /-- MSG_CAP: capacity of the message buffer in bytes. -/
  msgCap : Nat
  /-- UNIT_MAX: largest unit duration in ticks. -/
  unitMax : Nat
  /-- TICK_W: width in bits of TICK and END_TICK. -/
  tickW : Nat
  /-- CODE_TABLE: contents of the code ROM. -/
  codeTable : Vector Byte 64
  /-- RESET_WPM: the binary32 speed loaded at power-on. -/
  resetWpm : Word
deriving DecidableEq, Repr

/-- MINUTE_TICKS = 60·TICK_HZ (R8). -/
def Config.minuteTicks (c : Config) : Nat := 60 * c.tickHz

/-- MAX_REPEAT_MIN, fixed (R8). -/
def maxRepeatMin : Nat := 30

/-- `EOC`, the end-of-character sentinel; in the ROM it marks a code NotEncodable (30_encoding.md R79). -/
def eoc : Byte := 0x7F#8

/-- `WORDSPACE`, the ROM's word-space value (30_encoding.md R79). -/
def wordSpaceByte : Byte := 0xFF#8

/-- The default ROM bytes in index order (the byte column of 30_encoding.md R84). -/
def defaultCodeBytes : List Byte :=
  -- 32 .. 47: space ! " # $ % & ' ( ) * + , - . /
  [0xFF#8, 0xAD#8, 0x49#8, 0x7F#8, 0x12#8, 0x7F#8, 0x43#8, 0x79#8,
   0xB3#8, 0xB5#8, 0x7F#8, 0x53#8, 0xCD#8, 0x85#8, 0x55#8, 0x93#8] ++
  -- 48 .. 63: 0 to 9 : ; < = > ?
  [0xFB#8, 0x7B#8, 0x3B#8, 0x1B#8, 0x0B#8, 0x03#8, 0x83#8, 0xC3#8,
   0xE3#8, 0xF3#8, 0xE1#8, 0xA9#8, 0x7F#8, 0x8B#8, 0x7F#8, 0x31#8] ++
  -- 64 .. 79: @ A to O
  [0x69#8, 0x5F#8, 0x87#8, 0xA7#8, 0x8F#8, 0x3F#8, 0x27#8, 0xCF#8,
   0x07#8, 0x1F#8, 0x77#8, 0xAF#8, 0x47#8, 0xDF#8, 0x9F#8, 0xEF#8] ++
  -- 80 .. 95: P to Z [ \ ] ^ _
  [0x67#8, 0xD7#8, 0x4F#8, 0x0F#8, 0xBF#8, 0x2F#8, 0x17#8, 0x6F#8,
   0x97#8, 0xB7#8, 0xC7#8, 0x7F#8, 0x7F#8, 0x7F#8, 0x7F#8, 0x35#8]

/-- The default CODE_TABLE (30_encoding.md R84). UNVERIFIED: the spec marks the sequences as general knowledge (log 9). -/
def defaultCodeTable : Vector Byte 64 := ⟨defaultCodeBytes.toArray, by decide⟩

/-- Every parameter at the default of 00_scope.md R8. -/
def Config.default : Config where
  tickHz := 1000
  msgCap := 255
  unitMax := 65535
  tickW := 32
  codeTable := defaultCodeTable
  resetWpm := 0x41A00000#32

/-- The free value: what byte `i` of BUF reads as where the spec leaves it undefined (20_memory.md R52, 93 item 9:
"any value"). No body: nothing can be proved of it. No run from power-on reads it (log 4). -/
opaque Config.undefinedByte : Nat → Byte

end Sys2Proof
end

