-- ==== Sys2Proof/Machine/State.lean ====
section
/-! DEFINITION. The state of the block: every register, flag and memory of 10_state.md R20 to R38, the parameters, the
command stream, and the response of the last command. -/
namespace Sys2Proof.Machine

/-- The states of the keyer (10_state.md R25). Codes 10 to 15 are never held, and no value stands for them (log 6). -/
inductive KeyerState where
  | idle | preamble | dit | dah | ditDelay | dahDelay | charGap | wordGap | messageRepeatDelay | endOfMessageDelay
deriving DecidableEq, Repr

/-- The 4-bit code of a state (10_state.md R25), as READ register 0 shows it. -/
def KeyerState.code : KeyerState → BitVec 4
  | .idle => 0#4
  | .preamble => 1#4
  | .dit => 2#4
  | .dah => 3#4
  | .ditDelay => 4#4
  | .dahDelay => 5#4
  | .charGap => 6#4
  | .wordGap => 7#4
  | .messageRepeatDelay => 8#4
  | .endOfMessageDelay => 9#4

/-- The result codes (60_exceptions.md R170). Codes 7 to 255 are never returned, and no value stands for them (log 6). -/
inductive ResultCode where
  | ok | errTooLong | errInvalidSpeed | notEncodable | errBadOperand | errIllegalOpcode | errFrame
deriving DecidableEq, Repr

/-- Byte 0 of a response (60_exceptions.md R170). -/
def ResultCode.byte : ResultCode → Byte
  | .ok => 0#8
  | .errTooLong => 1#8
  | .errInvalidSpeed => 2#8
  | .notEncodable => 3#8
  | .errBadOperand => 4#8
  | .errIllegalOpcode => 5#8
  | .errFrame => 6#8

/-- A response: a result code and a 32-bit value (30_encoding.md R70). -/
structure Response where
  rc : ResultCode
  value : Word
deriving DecidableEq, Repr

/-- Who issues commands (00_scope.md R7). A role, not a permission: every command is obeyed from each (60_exceptions.md R180). -/
inductive Issuer where
  | host | tickSource | observer
deriving DecidableEq, Repr

/-- A frame as the transport delivers it, whole (30_encoding.md R65), and who issued it. -/
structure Command where
  issuer : Issuer
  frame : List Byte
deriving DecidableEq, Repr

/-- The message buffer's contents: (index, byte) cells. An unlisted index holds no value (20_memory.md R52; log 4). -/
abbrev Memory := List Host.Cell

/-- The one canonical form: indices strictly rising. -/
abbrev Memory.wf (m : Memory) : Prop := m.Pairwise (fun a b => a.1 < b.1)

structure State where
  /-- The parameters of 00_scope.md R8, fixed for the life of the block; the code ROM's contents (R38) among them. -/
  cfg : Config
  /-- TICK (R21), in the low TICK_W bits. -/
  tick : Counter
  /-- END_TICK (R22), in the low TICK_W bits: the last tick of the current timed state. -/
  endTick : Counter
  /-- UNIT (R23): ticks of one dit. -/
  unit : Word
  /-- WPM (R24): the binary32 bits of the last accepted speed. -/
  wpm : Word
  /-- STATE (R25). -/
  state : KeyerState
  /-- MSG_LEN (R26). -/
  msgLen : Half
  /-- CURSOR (R27). -/
  cursor : Half
  /-- CHARS_SENT (R28). -/
  charsSent : Half
  /-- STREAM (R29): the remaining element stream of the current character. -/
  stream : Byte
  /-- STARTED (R30): the current pass has made its first decision. -/
  started : Bool
  /-- BUSY (R31). -/
  busy : Bool
  /-- PREAMBLE_EN (R32). -/
  preambleEn : Bool
  /-- DUAL_FREQ (R33). -/
  dualFreq : Bool
  /-- TX_EN (R34). -/
  txEn : Bool
  /-- REPEAT_MIN (R35), unclamped. -/
  repeatMin : Byte
  /-- BUF (R37). -/
  buf : Memory
  /-- The model's own (log 2): the command stream not yet executed, in the merged order of 20_memory.md R56. -/
  commands : List Command
  /-- The model's own (log 3): who issued the last command taken from the stream. -/
  issuer : Option Issuer
  /-- The model's own (log 3): the response of the last command (30_encoding.md R70). -/
  response : Option Response
deriving DecidableEq, Repr

/-- Stops with a fault: there is none. The block "has no stuck state and no fault state" (00_scope.md R15) and raises
no exception (60_exceptions.md R174), so no constructor stands here (safe: nothing is raised). -/
inductive Fault where
deriving DecidableEq, Repr

/-- Stops of the model itself. -/
inductive Refusal where
  /-- An instruction without a meaning. Raised by nothing: every arm of exec has its meaning. Safe. -/
  | notModelled (mnemonic : String)
  /-- Raised by `powerOn` only, for a code table that 30_encoding.md R86 rules out ("a model should refuse it") or for
  parameters outside the legal ranges of 00_scope.md R8 (DESIGN CHOICE, log 8). Safe: no machine has such parameters. -/
  | illegalParameters
deriving DecidableEq, Repr

/-- What a command answers. -/
abbrev Result := Host.Outcome State Fault Refusal

/-- Power-on reset at the default parameters (10_state.md R41, 70_reset_and_hazards.md R185). BUF is unspecified there:
nothing is listed (log 4). The three fields of the model's own are empty (log 2, log 3). -/
def State.reset : State where
  cfg := Config.default
  tick := 0#64
  endTick := 0#64
  unit := 60#32
  wpm := 0x41A00000#32
  state := .idle
  msgLen := 0#16
  cursor := 0#16
  charsSent := 0#16
  stream := eoc
  started := false
  busy := false
  preambleEn := false
  dualFreq := false
  txEn := true
  repeatMin := 0#8
  buf := []
  commands := []
  issuer := none
  response := none

end Sys2Proof.Machine
end

