-- ==== Sys2Proof/Machine/Ops.lean ====
section
/-! DEFINITION. The shared operations: the message buffer, the modular counter arithmetic, responses and rejection,
the command stream, and the entry and expiry of timed states. -/
namespace Sys2Proof.Machine

/-- Reads one cell of BUF; none where no value is held. -/
def Memory.read : Memory → Nat → Option Byte
  | [], _ => none
  | (a, b) :: m, i => if a = i then some b else Memory.read m i

/-- Writes one cell of BUF, keeping the indices strictly rising. -/
def Memory.write : Memory → Nat → Byte → Memory
  | [], i, v => [(i, v)]
  | (a, b) :: m, i, v =>
    if i < a then (i, v) :: (a, b) :: m
    else if i = a then (i, v) :: m
    else (a, b) :: Memory.write m i v

/-- Writes consecutive cells from index `i` up, first byte first. -/
def Memory.writeFrom : Memory → Nat → List Byte → Memory
  | m, _, [] => m
  | m, i, b :: bs => Memory.writeFrom (Memory.write m i b) (i + 1) bs

/-- `BUF[i]` as the sequencer reads it (00_scope.md R10, 20_memory.md R52). At or past MSG_LEN the spec defines no value:
the free value answers (log 4). -/
def State.bufByte (s : State) (i : Nat) : Byte :=
  if i < s.msgLen.toNat then (s.buf.read i).getD (Config.undefinedByte i) else Config.undefinedByte i

/-- The code ROM (10_state.md R38): its contents are CODE_TABLE and nothing writes it. -/
def State.rom (s : State) : Vector Byte 64 := s.cfg.codeTable

/-- `x +_N k` of 00_scope.md R9 on a counter register of N bits. -/
def addN (n : Nat) (x : Counter) (k : Nat) : Counter := BitVec.ofNat 64 ((x.toNat + k) % 2 ^ n)

/-- `x -_N y` of 00_scope.md R9 on counter registers of N bits. -/
def subN (n : Nat) (x y : Counter) : Nat := (x.toNat + (2 ^ n - y.toNat % 2 ^ n)) % 2 ^ n

/-- `respond(code, value)` (00_scope.md R10). -/
def State.respond (s : State) (rc : ResultCode) (value : Word) : State := { s with response := some ⟨rc, value⟩ }

/-- `reject(code)` (00_scope.md R10): the response value is 0 and nothing else changes (60_exceptions.md R171). This is
what the block has in place of taking an exception (60_exceptions.md R174). -/
def State.reject (s : State) (rc : ResultCode) : State := s.respond rc 0#32

/-- The five bytes of a response, the value little-endian (30_encoding.md R70). -/
def Response.bytes (r : Response) : List Byte :=
  [r.rc.byte, byteOfWord r.value 0, byteOfWord r.value 1, byteOfWord r.value 2, byteOfWord r.value 3]

/-- The result code of a frame that is no command (60_exceptions.md R172, R173). -/
def rejectionCode : DecodeError → ResultCode
  | .malformed => .errFrame
  | .reservedOpcode _ => .errIllegalOpcode

/-- The answer to a frame that is no command: its code, and no state change (30_encoding.md R73, R74). -/
def execRejected (e : DecodeError) (s : State) : Result := .next (s.reject (rejectionCode e))

/-- An issuer adds a frame at the end of the command stream (00_scope.md R7, 20_memory.md R56). -/
def State.issue (s : State) (who : Issuer) (frame : List Byte) : State :=
  { s with commands := s.commands ++ [⟨who, frame⟩] }

/-- The block takes the command at the head of its stream (20_memory.md R55). -/
def State.accept (s : State) (c : Command) (rest : List Command) : State :=
  { s with commands := rest, issuer := some c.issuer }

/-- The frames of one issuer still waiting, in the order it issued them (20_memory.md R56). -/
def State.waiting (s : State) (who : Issuer) : List (List Byte) :=
  (s.commands.filter (fun c => c.issuer = who)).map Command.frame

/-- `enter(S, d)`: END_TICK becomes the last of the d ticks of S (43_tick.md R118; d ≥ 1, log 7). -/
def State.enter (s : State) (k : KeyerState) (d : Nat) : State :=
  { s with state := k, endTick := addN s.cfg.tickW s.tick (d - 1) }

/-- `expired()`: TICK exceeds END_TICK in the modular sense, 1 ≤ δ < 2^(TICK_W−1) (43_tick.md R119). -/
def State.expired (s : State) : Bool :=
  let delta := subN s.cfg.tickW s.tick s.endTick
  decide (1 ≤ delta ∧ delta < 2 ^ (s.cfg.tickW - 1))

end Sys2Proof.Machine
end

