-- ==== Sys2Proof/Machine/CodeTable.lean ====
section
/-! DEFINITION. The element-stream format (30_encoding.md R78 to R81) and the Code Table contract (40_lookup.md R90). -/
namespace Sys2Proof.Machine

/-- One keyed element (00_scope.md R13). -/
inductive Element where
  | dit | dah
deriving DecidableEq, Repr

/-- The bit that stands for an element: 0 a dit, 1 a dah (30_encoding.md R78). -/
def Element.bit : Element → Bool
  | .dit => false
  | .dah => true

/-- Σ e_i·2^(8−i) of 30_encoding.md R78, the first element's bit being `k`. -/
def elementWeight : Nat → List Element → Nat
  | _, [] => 0
  | k, e :: es => e.bit.toNat * 2 ^ k + elementWeight (k - 1) es

/-- The byte of a character of at most seven elements, (Σ e_i·2^(8−i)) + (2^(7−n) − 1) (30_encoding.md R78): its elements
from bit 7 down, the marker bit 0, then ones. No element at all gives EOC (R79). -/
def packElements (es : List Element) : Byte :=
  BitVec.ofNat 8 (elementWeight 7 es + (2 ^ (7 - es.length) - 1))

/-- The leading bit of a stream: a dah if it is 1 (30_encoding.md R81). -/
def leadingElement (s : Byte) : Element := if s.getLsbD 7 then .dah else .dit

/-- The stream after its leading element is taken, `((s << 1) | 1)[7:0]` (30_encoding.md R81). -/
def consumeElement (s : Byte) : Byte := (s <<< 1) ||| 1#8

/-- The position of the marker: the lowest 0 bit among bits 0 to 7, 8 if there is none (30_encoding.md R80). -/
def markerPosition (s : Byte) : Nat := ((List.range 8).find? (fun k => !s.getLsbD k)).getD 8

/-- The number of elements of a stream, n = 7 − p (30_encoding.md R80); 0 for EOC. -/
def elementCount (s : Byte) : Nat := 7 - markerPosition s

/-- The elements of a stream, element i being bit 8 − i (30_encoding.md R80). Defined for every byte but WORDSPACE. -/
def elementsOf (s : Byte) : List Element :=
  (List.range (elementCount s)).map (fun i => if s.getLsbD (7 - i) then .dah else .dit)

/-- What the Code Table answers (40_lookup.md R90). -/
inductive LookupResult where
  | stream (e : Byte)
  | wordSpace
  | notEncodable
deriving DecidableEq, Repr

/-- `lookup(c)` (40_lookup.md R90). The range check comes before the ROM read, so no read falls past the table
(20_memory.md R53). -/
def lookupCode (rom : Vector Byte 64) (c : Byte) : LookupResult :=
  if h : 32 ≤ c.toNat ∧ c.toNat ≤ 95 then
    let e := rom[c.toNat - 32]'(by omega)
    if e = wordSpaceByte then .wordSpace
    else if e = eoc then .notEncodable
    else .stream e
  else .notEncodable

end Sys2Proof.Machine
end

