-- ==== Sys2Proof/Machine/Operands.lean ====
section
/-! DEFINITION. Operand decoding (30_encoding.md R75): flag operands, register numbers, the binary32 speed
(41_configure.md R96), and the text of a SEND (42_message.md R107). -/
namespace Sys2Proof.Machine

/-- A flag operand: 0x00 and 0x01 only (30_encoding.md R75). -/
def flagOperand (b : Byte) : Option Bool := if b.toNat ≤ 1 then some (b.getLsbD 0) else none

/-- The readable registers (44_fields.md R163). -/
inductive RegName where
  | status | tick | charsSent | unit | wpm | repeatMin | cursor | msgLen | endTick | stream
deriving DecidableEq, Repr

/-- A register operand: 0 to 9 only (44_fields.md R163). -/
def RegName.ofByte (b : Byte) : Option RegName :=
  if b = 0#8 then some .status
  else if b = 1#8 then some .tick
  else if b = 2#8 then some .charsSent
  else if b = 3#8 then some .unit
  else if b = 4#8 then some .wpm
  else if b = 5#8 then some .repeatMin
  else if b = 6#8 then some .cursor
  else if b = 7#8 then some .msgLen
  else if b = 8#8 then some .endTick
  else if b = 9#8 then some .stream
  else none

/-- `floor((6·TICK_HZ/5) / (m·2^x))`, exactly (41_configure.md R96); the exponent x is an integer. -/
def exactQuotient (tickHz m : Nat) (x : Int) : Nat :=
  if 0 ≤ x then (6 * tickHz) / (5 * m * 2 ^ x.toNat)
  else (6 * tickHz * 2 ^ (-x).toNat) / (5 * m)

/-- `unit_quotient(w)` (41_configure.md R96); none is `Invalid`. -/
def unitQuotient (tickHz : Nat) (w : Word) : Option Nat :=
  let sign := w.getLsbD 31
  let e := (w.extractLsb' 23 8).toNat
  let f := (w.extractLsb' 0 23).toNat
  if e = 255 ∧ f ≠ 0 then none
  else if sign then none
  else if e = 0 ∧ f = 0 then none
  else if e = 255 then some 0
  else if e = 0 then some (exactQuotient tickHz f (-149))
  else some (exactQuotient tickHz (f + 2 ^ 23) ((e : Int) - 150))

/-- The accepted unit, `min(max(q, 1), UNIT_MAX)` (41_configure.md R97). -/
def clampUnit (c : Config) (q : Nat) : Nat := min (max q 1) c.unitMax

/-- The text a SEND stores: what comes before the first 0x00 (42_message.md R105, R107). -/
def storedText (text : List Byte) : List Byte := text.takeWhile (fun b => b ≠ 0#8)

end Sys2Proof.Machine
end

