-- ==== Sys2Proof/Machine/Flags.lean ====
section
/-! DEFINITION. The output signals (43_tick.md R145, R146) and the values READ returns (44_fields.md R162 to R164). -/
namespace Sys2Proof.Machine

/-- KEY_DOWN (43_tick.md R145). -/
def KeyerState.keyDown : KeyerState → Bool
  | .preamble | .dit | .dah => true
  | .idle | .ditDelay | .dahDelay | .charGap | .wordGap | .messageRepeatDelay | .endOfMessageDelay => false

/-- TRANSMIT (43_tick.md R146). -/
def State.transmit (s : State) : Bool := s.state.keyDown && s.txEn

/-- TX_OUT, the primary output line (43_tick.md R146). -/
def State.txOut (s : State) : Bool :=
  if s.dualFreq then s.busy && s.txEn && decide (s.state ≠ .messageRepeatDelay) else s.transmit

/-- IND_OUT, the indicator line (43_tick.md R146). -/
def State.indOut (s : State) : Bool := if s.dualFreq then s.busy else s.transmit

/-- Register 0, STATUS: bits 31:12 read 0, 11:8 STATE, 7 reads 0, then the flags and outputs (44_fields.md R162). -/
def State.statusWord (s : State) : Word :=
  0#20 ++ s.state.code ++ 0#1 ++ BitVec.ofBool s.txEn ++ BitVec.ofBool s.dualFreq ++ BitVec.ofBool s.preambleEn ++
    BitVec.ofBool s.txOut ++ BitVec.ofBool s.indOut ++ BitVec.ofBool s.transmit ++ BitVec.ofBool s.busy

/-- Register 9, STREAM: bit 8 STARTED, bits 7:0 the stream, the rest 0 (44_fields.md R164). -/
def State.streamWord (s : State) : Word := 0#23 ++ BitVec.ofBool s.started ++ s.stream

/-- `regval(r)` (44_fields.md R163): narrow registers zero-extended, the counters' low 32 bits (20_memory.md R54). -/
def State.regval (s : State) : RegName → Word
  | .status => s.statusWord
  | .tick => s.tick.setWidth 32
  | .charsSent => s.charsSent.setWidth 32
  | .unit => s.unit
  | .wpm => s.wpm
  | .repeatMin => s.repeatMin.setWidth 32
  | .cursor => s.cursor.setWidth 32
  | .msgLen => s.msgLen.setWidth 32
  | .endTick => s.endTick.setWidth 32
  | .stream => s.streamWord

end Sys2Proof.Machine
end

