-- ==== Sys2Proof/Machine/Configure.lean ====
section
/-! DEFINITION. Speed configuration: CONFIGURE (41_configure.md). -/
namespace Sys2Proof.Machine

/-- CONFIGURE w (41_configure.md R95): UNIT and WPM, and only when the speed is accepted. -/
def execConfigure (w : Word) (s : State) : Result :=
  match unitQuotient s.cfg.tickHz w with
  | none => .next (s.reject .errInvalidSpeed)
  | some q => .next ({ s with unit := BitVec.ofNat 32 (clampUnit s.cfg q), wpm := w }.respond .ok 0#32)

end Sys2Proof.Machine
end

