-- ==== Sys2Proof/Machine/Fields.lean ====
section
/-! DEFINITION. Mode flags and readable fields: SET_PREAMBLE, SET_DUALFREQ, SET_TXEN, SET_REPEAT, READ (44_fields.md). -/
namespace Sys2Proof.Machine

/-- SET_PREAMBLE b (44_fields.md R155). -/
def execSetPreamble (b : Byte) (s : State) : Result :=
  match flagOperand b with
  | none => .next (s.reject .errBadOperand)
  | some v => .next ({ s with preambleEn := v }.respond .ok 0#32)

/-- SET_DUALFREQ b (44_fields.md R156). -/
def execSetDualfreq (b : Byte) (s : State) : Result :=
  match flagOperand b with
  | none => .next (s.reject .errBadOperand)
  | some v => .next ({ s with dualFreq := v }.respond .ok 0#32)

/-- SET_TXEN b (44_fields.md R157). -/
def execSetTxen (b : Byte) (s : State) : Result :=
  match flagOperand b with
  | none => .next (s.reject .errBadOperand)
  | some v => .next ({ s with txEn := v }.respond .ok 0#32)

/-- SET_REPEAT m (44_fields.md R158): stored unclamped. -/
def execSetRepeat (m : Byte) (s : State) : Result := .next ({ s with repeatMin := m }.respond .ok 0#32)

/-- READ r (44_fields.md R160). -/
def execRead (r : Byte) (s : State) : Result :=
  match RegName.ofByte r with
  | none => .next (s.reject .errBadOperand)
  | some reg => .next (s.respond .ok (s.regval reg))

end Sys2Proof.Machine
end

