-- ==== Sys2Proof/Machine/Lookup.lean ====
section
/-! DEFINITION. The Code Table command: LOOKUP (40_lookup.md). -/
namespace Sys2Proof.Machine

/-- LOOKUP c (40_lookup.md R91). -/
def execLookup (c : Byte) (s : State) : Result :=
  match lookupCode s.rom c with
  | .stream e => .next (s.respond .ok (e.setWidth 32))
  | .wordSpace => .next (s.respond .ok 0xFF#32)
  | .notEncodable => .next (s.reject .notEncodable)

end Sys2Proof.Machine
end

