-- ==== Sys2Proof/Machine/Message.lean ====
section
/-! DEFINITION. Message buffer commands: SEND and RESET (42_message.md). -/
namespace Sys2Proof.Machine

/-- The writes SEND, RESET and the end of EndOfMessageDelay share: the sequencer at the start of an idle message
position (42_message.md R105, R110; 43_tick.md R134). MSG_LEN and BUSY are the caller's. -/
def State.rewind (s : State) (len : Half) (busy : Bool) : State :=
  { s with msgLen := len, cursor := 0#16, charsSent := 0#16, stream := eoc, started := false, state := .idle,
           busy := busy }

/-- SEND "t" (42_message.md R105). The capacity check uses the delivered length (R107). -/
def execSend (text : List Byte) (s : State) : Result :=
  if text.length > s.cfg.msgCap then .next (s.reject .errTooLong)
  else
    let kept := storedText text
    .next (({ s with buf := s.buf.writeFrom 0 kept }.rewind (BitVec.ofNat 16 kept.length) true).respond .ok 0#32)

/-- RESET (42_message.md R110). -/
def execReset (s : State) : Result := .next ((s.rewind 0#16 false).respond .ok 0#32)

end Sys2Proof.Machine
end

