-- ==== Sys2Proof/Machine/Tick.lean ====
section
/-! DEFINITION. TICK and the keyer state machine (43_tick.md). Names follow the spec's pseudocode. -/
namespace Sys2Proof.Machine

/-- The duration of MessageRepeatDelay, max(7u, min(REPEAT_MIN, 30)·MINUTE_TICKS) (43_tick.md R120, R131). -/
def State.repeatDuration (s : State) : Nat :=
  max (7 * s.unit.toNat) (min s.repeatMin.toNat maxRepeatMin * s.cfg.minuteTicks)

/-- `end_of_message()` (43_tick.md R131; 90_conflicts.md C1). -/
def State.endOfMessage (s : State) : State :=
  if s.repeatMin = 0#8 then s.enter .endOfMessageDelay (7 * s.unit.toNat)
  else s.enter .messageRepeatDelay s.repeatDuration

/-- `element()`: keys the leading element of STREAM (43_tick.md R125). -/
def State.element (s : State) : State :=
  match leadingElement s.stream with
  | .dah => { s.enter .dah (3 * s.unit.toNat) with stream := consumeElement s.stream }
  | .dit => { s.enter .dit s.unit.toNat with stream := consumeElement s.stream }

/-- `fetch()`: takes the character at CURSOR (43_tick.md R124). A NotEncodable character costs one tick in Idle. -/
def State.fetch (s : State) : State :=
  if s.cursor = s.msgLen then s.endOfMessage
  else
    match lookupCode s.rom (s.bufByte s.cursor.toNat) with
    | .wordSpace => { s with cursor := s.cursor + 1#16, stream := eoc }.enter .wordGap (7 * s.unit.toNat)
    | .notEncodable => { s with cursor := s.cursor + 1#16, stream := eoc, state := .idle }
    | .stream e => { s with stream := e }.element

/-- `decide()` (43_tick.md R123): the preamble flag is sampled here only, at the first decision of a pass. -/
def State.decideNext (s : State) : State :=
  if s.started then
    if s.stream = eoc then s.fetch else s.element
  else if s.preambleEn then { s with started := true }.enter .preamble (7 * s.unit.toNat)
  else { s with started := true }.fetch

/-- `continue()`: the decision point at the end of a gap, the Preamble and the repeat delay (43_tick.md R122). -/
def State.continueNext (s : State) : State := if s.txEn then s.decideNext else { s with state := .idle }

/-- What follows the last element of a character, CURSOR having passed it: the end of the message, a word gap in place of
the character gap (the space is consumed, not counted), or a character gap (43_tick.md R127). -/
def State.afterCharacter (s : State) : State :=
  if s.cursor = s.msgLen then s.endOfMessage
  else
    match lookupCode s.rom (s.bufByte s.cursor.toNat) with
    | .wordSpace => { s with cursor := s.cursor + 1#16 }.enter .wordGap (7 * s.unit.toNat)
    | .notEncodable | .stream _ => s.enter .charGap (3 * s.unit.toNat)

/-- Exit of Dit or Dah, `gap` being the element's trailing gap (43_tick.md R126, R127). TX_EN is not tested. -/
def State.exitElement (s : State) (gap : KeyerState) : State :=
  if s.stream = eoc then { s with charsSent := s.charsSent + 1#16, cursor := s.cursor + 1#16 }.afterCharacter
  else s.enter gap s.unit.toNat

/-- Exit of Preamble: the flag is cleared after use (43_tick.md R129). -/
def State.exitPreamble (s : State) : State := { s with preambleEn := false }.continueNext

/-- Exit of EndOfMessageDelay: the block is at rest (43_tick.md R134). -/
def State.exitEndOfMessage (s : State) : State := s.rewind 0#16 false

/-- Exit of MessageRepeatDelay: the next pass of the same message (43_tick.md R136; 90_conflicts.md C2). -/
def State.exitRepeat (s : State) : State :=
  { s with cursor := 0#16, charsSent := 0#16, stream := eoc, started := false }.continueNext

/-- `exit(STATE)` of an expired timed state (43_tick.md R126 to R136); Idle is not timed. -/
def State.exitTimed (s : State) : State :=
  match s.state with
  | .idle => s
  | .preamble => s.exitPreamble
  | .dit => s.exitElement .ditDelay
  | .dah => s.exitElement .dahDelay
  | .ditDelay | .dahDelay | .charGap | .wordGap => s.continueNext
  | .messageRepeatDelay => s.exitRepeat
  | .endOfMessageDelay => s.exitEndOfMessage

/-- One evaluation of the state machine, after TICK was incremented (43_tick.md R115, R117, R121). -/
def State.evaluate (s : State) : State :=
  if s.state = .idle then
    if s.busy && s.txEn then s.decideNext else s
  else if s.expired then s.exitTimed
  else s

/-- The first effect of every TICK (43_tick.md R116). -/
def State.countTick (s : State) : State := { s with tick := addN s.cfg.tickW s.tick 1 }

/-- TICK (43_tick.md R115): never rejected. -/
def execTick (s : State) : Result := .next (s.countTick.evaluate.respond .ok 0#32)

end Sys2Proof.Machine
end

