-- ==== Sys2Proof/Machine/Dispatch.lean ====
section
/-! DEFINITION. One arm per command, each one call of its meaning. -/
namespace Sys2Proof.Machine

def exec (i : Instr) (s : State) : Host.Outcome State Fault Refusal :=
  match i with
  | .tick => Sys2Proof.Machine.execTick s
  | .configure w => Sys2Proof.Machine.execConfigure w s
  | .send text => Sys2Proof.Machine.execSend text s
  | .reset => Sys2Proof.Machine.execReset s
  | .setPreamble b => Sys2Proof.Machine.execSetPreamble b s
  | .setDualfreq b => Sys2Proof.Machine.execSetDualfreq b s
  | .setTxen b => Sys2Proof.Machine.execSetTxen b s
  | .setRepeat m => Sys2Proof.Machine.execSetRepeat m s
  | .read r => Sys2Proof.Machine.execRead r s
  | .lookup c => Sys2Proof.Machine.execLookup c s

end Sys2Proof.Machine
end

