-- ==== Sys2Proof/Machine/Step.lean ====
section
/-! DEFINITION. One step: the block takes one command from its stream and executes it, or waits (20_memory.md R55). -/
namespace Sys2Proof.Machine

/-- One command, whole (20_memory.md R55). A frame that is no command is answered and changes nothing (60_exceptions.md
R173). With no command waiting the block does nothing and loses nothing (60_exceptions.md R184; log 2). -/
def step (s : State) : Host.Outcome State Fault Refusal :=
  match s.commands with
  | [] => .next s
  | c :: rest =>
    match decode c.frame with
    | .ok i => exec i (s.accept c rest)
    | .error e => execRejected e (s.accept c rest)

/-- `s` with an instruction's frame at the head of the command stream, issued by the host, so that the next step runs it
(log 2). -/
def State.withFetchWord (s : State) (nbits w : Nat) : State :=
  { s with commands := ⟨.host, tableFrame nbits w⟩ :: s.commands }

end Sys2Proof.Machine
end

