-- ==== Sys2Proof/Machine/Check.lean ====
section
/-! DEFINITION. The priority of errors (60_exceptions.md R173): the one result code a frame gets, written from the rule
itself and not from the commands' meanings. -/
namespace Sys2Proof.Machine

/-- The command's own checks, opcode by opcode: the last five lines of R173. -/
def checkOperands (c : Config) (op : Byte) (body : List Byte) : ResultCode :=
  let b := (body.headD 0#8).toNat
  if (op = 0x05#8 ∨ op = 0x06#8 ∨ op = 0x07#8) ∧ b > 1 then .errBadOperand
  else if op = 0x09#8 ∧ b > 9 then .errBadOperand
  else if op = 0x03#8 ∧ body.length - 2 > c.msgCap then .errTooLong
  else
    match op, body with
    | 0x02#8, [b0, b1, b2, b3] =>
      if unitQuotient c.tickHz (wordOfBytes b0 b1 b2 b3) = none then .errInvalidSpeed else .ok
    | 0x0A#8, [ch] => if lookupCode c.codeTable ch = .notEncodable then .notEncodable else .ok
    | _, _ => .ok

/-- `check(frame)` (60_exceptions.md R173). -/
def checkFrame (c : Config) : List Byte → ResultCode
  | [] => .errFrame
  | op :: body =>
    if expectedLength (op :: body) ≠ some (body.length + 1) then .errFrame
    else if op = 0x00#8 ∨ op.toNat ≥ 0x0B then .errIllegalOpcode
    else checkOperands c op body

end Sys2Proof.Machine
end

