-- ==== Sys2Proof/Machine/PowerOn.lean ====
section
/-! DEFINITION. Power-on reset for any parameters (00_scope.md R8, 70_reset_and_hazards.md R185), refusing those the spec
rules out. -/
namespace Sys2Proof.Machine

/-- 30_encoding.md R86: entry 0 of a code table is 0xFF, and no other entry is. -/
def legalCodeTable (t : Vector Byte 64) : Bool :=
  t[0] == wordSpaceByte && t.toList.tail.all (fun e => e != wordSpaceByte)

end Sys2Proof.Machine

namespace Sys2Proof

/-- The largest duration the rules can produce, max(7·UNIT_MAX, 30·MINUTE_TICKS) (00_scope.md R8). -/
def Config.longest (c : Config) : Nat := max (7 * c.unitMax) (maxRepeatMin * c.minuteTicks)

/-- The legal ranges and the constraint of 00_scope.md R8, and the table rule of 30_encoding.md R86. -/
def Config.legal (c : Config) : Bool :=
  decide (1 ≤ c.tickHz ∧ c.tickHz ≤ 2 ^ 20) && decide (1 ≤ c.msgCap ∧ c.msgCap ≤ 65535) &&
    decide (1 ≤ c.unitMax ∧ c.unitMax ≤ 2 ^ 24) && decide (24 ≤ c.tickW ∧ c.tickW ≤ 64) &&
    decide (c.longest < 2 ^ (c.tickW - 1)) && Machine.legalCodeTable c.codeTable &&
    (Machine.unitQuotient c.tickHz c.resetWpm).isSome

/-- The unit loaded at power-on: the unit of RESET_WPM (10_state.md R41; DEDUCED for other parameters, log 10). -/
def Config.resetUnit (c : Config) : Nat := Machine.clampUnit c ((Machine.unitQuotient c.tickHz c.resetWpm).getD 1)

end Sys2Proof

namespace Sys2Proof.Machine

/-- Power-on reset with parameters `c` (70_reset_and_hazards.md R185): the registers of 10_state.md R41, the parameters
in place. Refused: a table that 30_encoding.md R86 rules out (93 item 18), and parameters outside
the ranges or the constraint of 00_scope.md R8 (DESIGN CHOICE, log 8). -/
def powerOn (c : Config) : Result :=
  if c.legal then
    .next { State.reset with cfg := c, unit := BitVec.ofNat 32 c.resetUnit, wpm := c.resetWpm }
  else .refused .illegalParameters

end Sys2Proof.Machine
end

