-- ==== Sys2Proof/Safety.lean ====
section
/-! DEFINITION. The terms claims use: runs of TICKs, the value of a speed operand, and the invariant of the block
(10_state.md R42, strengthened so that every step keeps it). -/
namespace Sys2Proof.Machine

/-- `k` TICK commands in a row, the expansion of `TICKS k` (30_encoding.md R77). -/
def runTicks : Nat → State → Result
  | 0, s => .next s
  | k + 1, s =>
    match exec .tick s with
    | .next t => runTicks k t
    | .fault r => .fault r
    | .refused r => .refused r

/-- The number a binary32 pattern with sign bit 0 and exponent field below 255 denotes (41_configure.md R96). -/
def speedValue (w : Word) : ℚ :=
  let e := (w.extractLsb' 23 8).toNat
  let f := (w.extractLsb' 0 23).toNat
  if e = 0 then f * (2 : ℚ) ^ (-149 : ℤ) else (f + 2 ^ 23) * (2 : ℚ) ^ ((e : ℤ) - 150)

/-- The longest duration a state can be entered with, whatever the unit (43_tick.md R120). -/
def entryBound (c : Config) : KeyerState → Nat
  | .idle => 0
  | .dit | .ditDelay | .dahDelay => c.unitMax
  | .dah | .charGap => 3 * c.unitMax
  | .preamble | .wordGap | .endOfMessageDelay => 7 * c.unitMax
  | .messageRepeatDelay => c.longest

/-- 10_state.md R42 item 1. -/
abbrev State.CountsInRange (s : State) : Prop :=
  s.charsSent.toNat ≤ s.cursor.toNat ∧ s.cursor.toNat ≤ s.msgLen.toNat ∧ s.msgLen.toNat ≤ s.cfg.msgCap ∧
    1 ≤ s.unit.toNat ∧ s.unit.toNat ≤ s.cfg.unitMax

/-- 10_state.md R42 item 2. -/
abbrev State.RestWhenNotBusy (s : State) : Prop :=
  s.busy = false → s.state = .idle ∧ s.msgLen = 0#16 ∧ s.cursor = 0#16 ∧ s.charsSent = 0#16 ∧ s.stream = eoc ∧
    s.started = false

/-- 10_state.md R42 item 3. -/
abbrev State.BusyWhenTimed (s : State) : Prop := s.state ≠ .idle → s.busy = true ∧ s.started = true

/-- 10_state.md R42 item 4. -/
abbrev State.ElementLeftInGap (s : State) : Prop := s.state = .ditDelay ∨ s.state = .dahDelay → s.stream ≠ eoc

/-- 10_state.md R42 item 5. -/
abbrev State.NoElementBetween (s : State) : Prop :=
  s.state = .preamble ∨ s.state = .charGap ∨ s.state = .wordGap ∨ s.state = .messageRepeatDelay ∨
    s.state = .endOfMessageDelay → s.stream = eoc

/-- 10_state.md R42 item 6. -/
abbrev State.StreamIsCharacter (s : State) : Prop :=
  (s.stream = eoc ∨ (1 ≤ elementCount s.stream ∧ elementCount s.stream ≤ 7)) ∧ s.stream ≠ wordSpaceByte

/-- 10_state.md R42 item 7, with the longest entry duration of the state in place of the one it was entered with, which
no register keeps (DEDUCED; log 11). -/
abbrev State.DeadlineAhead (s : State) : Prop :=
  s.state ≠ .idle → subN s.cfg.tickW s.endTick s.tick < entryBound s.cfg s.state

/-- What R42 needs beside its own items so that a step keeps it: the counters fit TICK_W bits, a pass not yet started is
at the start, and a character in hand is within the message. -/
abbrev State.Position (s : State) : Prop :=
  s.tick.toNat < 2 ^ s.cfg.tickW ∧ s.endTick.toNat < 2 ^ s.cfg.tickW ∧
    (s.started = false → s.cursor = 0#16 ∧ s.charsSent = 0#16 ∧ s.stream = eoc) ∧
    (s.stream ≠ eoc ∨ s.state = .dit ∨ s.state = .dah → s.cursor.toNat < s.msgLen.toNat)

/-- The message buffer: canonical, within its capacity (20_memory.md R64), and defined below MSG_LEN (10_state.md R37). -/
abbrev State.BufferDefined (s : State) : Prop :=
  s.buf.wf ∧ (∀ cell ∈ s.buf, cell.1 < s.cfg.msgCap) ∧ ∀ i < s.msgLen.toNat, (s.buf.read i).isSome = true

/-- The invariant: legal parameters, the seven items of 10_state.md R42, item 7 in the reading of log 11, and what
they need. -/
abbrev State.Inv (s : State) : Prop :=
  s.cfg.legal = true ∧ s.CountsInRange ∧ s.RestWhenNotBusy ∧ s.BusyWhenTimed ∧ s.ElementLeftInGap ∧
    s.NoElementBetween ∧ s.StreamIsCharacter ∧ s.DeadlineAhead ∧ s.Position ∧ s.BufferDefined

end Sys2Proof.Machine
end

