-- ==== Sys2Proof/Certificates/Slice0/Obligations.lean ====
section
/-! DEFINITION. The statements for the provers. Rule numbers are those of spec/. A TICK's evaluation reads the incremented
counter (43_tick.md R116), so the statements about it write `addN W TICK 1` for the tick it makes. -/

open Sys2Proof Sys2Proof.Machine

/-! ### Frames and the command stream -/

/-- A step runs the command its frame decodes to, in the state that has taken it from the stream; a frame that is no command
is answered and changes nothing else (R55, R65). With no command waiting nothing changes: the model's choice, from R184
(log 2). -/
def Obligations.StepRunsDecodedCommand : Prop :=
  (∀ (s : State) (c : Command) (rest : List Command) (i : Instr), s.commands = c :: rest → decode c.frame = .ok i →
    step s = exec i { s with commands := rest, issuer := some c.issuer }) ∧
  (∀ (s : State) (c : Command) (rest : List Command) (e : DecodeError), s.commands = c :: rest →
    decode c.frame = .error e → step s = .next { s with
      commands := rest, issuer := some c.issuer, response := some ⟨rejectionCode e, 0#32⟩ }) ∧
  (∀ s : State, s.commands = [] → step s = .next s)

/-- One frame of each format, written out from R66 to R69 and R71, and the command it is. -/
def Obligations.SampleFramesDecode : Prop :=
  decode [0x01#8] = .ok .tick ∧
  decode [0x02#8, 0x00#8, 0x00#8, 0xA0#8, 0x41#8] = .ok (.configure 0x41A00000#32) ∧
  decode [0x03#8, 0x02#8, 0x00#8, 0x45#8, 0x54#8] = .ok (.send [0x45#8, 0x54#8]) ∧
  decode [0x04#8] = .ok .reset ∧
  decode [0x07#8, 0x00#8] = .ok (.setTxen 0x00#8) ∧
  decode [0x08#8, 0x1E#8] = .ok (.setRepeat 0x1E#8) ∧
  decode [0x09#8, 0x04#8] = .ok (.read 0x04#8) ∧
  decode [0x0A#8, 0x41#8] = .ok (.lookup 0x41#8)

/-- Every command that has a frame is read back from it, whatever its operands (R65 to R72). -/
def Obligations.DecodeOfEncode : Prop :=
  ∀ i : Instr, i.wellFormed = true → decode (encode i) = .ok i

/-- A frame that decodes is the one frame of its command: no bit of it is ignored (R74), and the command has a frame. -/
def Obligations.EncodeOfDecode : Prop :=
  ∀ (f : List Byte) (i : Instr), decode f = .ok i → encode i = f ∧ i.wellFormed = true

/-- R72: the length of a frame, from byte 0, and for 0x03 from bytes 1 and 2. -/
def Obligations.FrameLengthByOpcode : Prop :=
  expectedLength [] = none ∧
  ∀ (op : Byte) (body : List Byte), expectedLength (op :: body) =
    if op = 0x01#8 ∨ op = 0x04#8 then some 1
    else if 0x05 ≤ op.toNat ∧ op.toNat ≤ 0x0A then some 2
    else if op = 0x02#8 then some 5
    else if op = 0x03#8 then
      (if body.length < 2 then none
       else some (3 + ((body.getD 0 0#8).toNat + 2 ^ 8 * (body.getD 1 0#8).toNat)))
    else some 1

/-- R73: a frame is malformed exactly when its length is not the length of R72, and it is then answered ERR_FRAME with no
state change. -/
def Obligations.WrongLengthIsFrameError : Prop :=
  (∀ f : List Byte, decode f = .error .malformed ↔ expectedLength f ≠ some f.length) ∧
  (∀ (s : State) (c : Command) (rest : List Command), s.commands = c :: rest →
    expectedLength c.frame ≠ some c.frame.length → step s = .next { s with
      commands := rest, issuer := some c.issuer, response := some ⟨.errFrame, 0#32⟩ })

/-- R172: a reserved opcode alone is answered ERR_ILLEGAL_OPCODE, with extra bytes ERR_FRAME; no state change. -/
def Obligations.ReservedOpcodesRejected : Prop :=
  ∀ (s : State) (c : Command) (rest : List Command) (op : Byte) (body : List Byte), s.commands = c :: rest →
    c.frame = op :: body → (op = 0x00#8 ∨ 0x0B ≤ op.toNat) →
    step s = .next { s with
      commands := rest, issuer := some c.issuer,
      response := some ⟨if body = [] then .errIllegalOpcode else .errFrame, 0#32⟩ }

/-- R173: the code of every response is the first check that applies, in the order of the rule. -/
def Obligations.ResponseIsFirstFailedCheck : Prop :=
  ∀ (s : State) (c : Command) (rest : List Command), s.commands = c :: rest →
    ∃ (t : State) (v : Word), step s = .next t ∧ t.response = some ⟨checkFrame s.cfg c.frame, v⟩

/-- R171: a command answered with any code but OK changes no register, flag, buffer byte or output, and its value is 0; the
block takes the next command. -/
def Obligations.RejectionChangesNothing : Prop :=
  ∀ (s t : State) (c : Command) (rest : List Command) (rc : ResultCode) (v : Word), s.commands = c :: rest →
    step s = .next t → t.response = some ⟨rc, v⟩ → rc ≠ .ok →
    v = 0#32 ∧
    t = { s with commands := rest, issuer := some c.issuer, response := some ⟨rc, 0#32⟩ } ∧
    t.transmit = s.transmit ∧ t.txOut = s.txOut ∧ t.indOut = s.indOut ∧ ∃ u : State, step t = .next u

/-- R15: the block never halts. Every command answers a next state and a response, in every state, and so does every step. -/
def Obligations.EveryCommandAnswers : Prop :=
  (∀ (i : Instr) (s : State), ∃ (t : State) (r : Response), exec i s = .next t ∧ t.response = some r) ∧
  (∀ s : State, ∃ t : State, step s = .next t)

/-- R56: the block keeps each issuer's own order. A step takes the oldest waiting frame of the issuer it serves and leaves
the other issuers' frames as they wait; a frame issued joins the end of its issuer's. -/
def Obligations.IssuersKeepTheirOrder : Prop :=
  (∀ (s t : State) (c : Command) (rest : List Command) (who : Issuer), s.commands = c :: rest → step s = .next t →
    if who = c.issuer then s.waiting who = c.frame :: t.waiting who else t.waiting who = s.waiting who) ∧
  (∀ (s : State) (a b : Issuer) (f : List Byte),
    (s.issue a f).waiting b = if b = a then s.waiting b ++ [f] else s.waiting b)

/-! ### Power-on and the invariant -/

/-- R41: every register after power-on, and READ of register 0 giving 0x40 (R185). -/
def Obligations.PowerOnValues : Prop :=
  let s := State.reset
  s.tick = 0#64 ∧ s.endTick = 0#64 ∧ s.unit = 60#32 ∧ s.wpm = 0x41A00000#32 ∧ s.state = .idle ∧ s.msgLen = 0#16 ∧
  s.cursor = 0#16 ∧ s.charsSent = 0#16 ∧ s.stream = 0x7F#8 ∧ s.started = false ∧ s.busy = false ∧
  s.preambleEn = false ∧ s.dualFreq = false ∧ s.txEn = true ∧ s.repeatMin = 0#8 ∧ s.rom = defaultCodeTable ∧
  s.state.keyDown = false ∧ s.transmit = false ∧ s.txOut = false ∧ s.indOut = false ∧ s.statusWord = 0x00000040#32

/-- Power-on with any parameters of R8: the legal ones give the registers of R41 with the unit of RESET_WPM (log 10, the
model's inference). The others are refused: a table that R86 rules out as R86 and 93 item 18 say, parameters outside the
ranges or the constraint of R8 by the model's choice (log 8). The defaults are legal and give `State.reset`. -/
def Obligations.PowerOnTakesLegalParameters : Prop :=
  (∀ c : Config, c.legal = true → ∃ s : State, powerOn c = .next s ∧
    s = { State.reset with cfg := c, unit := s.unit, wpm := c.resetWpm } ∧
    ∃ q, unitQuotient c.tickHz c.resetWpm = some q ∧ s.unit.toNat = min (max q 1) c.unitMax) ∧
  (∀ c : Config, c.legal = false → powerOn c = .refused .illegalParameters) ∧
  powerOn Config.default = .next State.reset

/-- Every state power-on gives meets the invariant of the model, which has item 7 of R42 in the weaker reading of log 11
(`State.DeadlineAhead`); with parameters other than the defaults UNIT is the model's inference of log 10. -/
def Obligations.PowerOnMeetsInvariant : Prop :=
  State.reset.Inv ∧ ∀ (c : Config) (s : State), powerOn c = .next s → s.Inv

/-- Every step keeps the invariant of the model, from every state that meets it: items 1 to 6 of R42, item 7 with the longest
entry duration of the state in place of the one it was entered with (`State.DeadlineAhead`, the model's weaker reading,
log 11), and what a step needs to keep them. -/
def Obligations.StepKeepsInvariant : Prop :=
  ∀ s t : State, s.Inv → step s = .next t → t.Inv

/-- R42: after any command sequence from power-on with any legal parameters, the seven items hold (item 7 with the longest
entry duration of the state, log 11). -/
def Obligations.ReachableStatesAreRegular : Prop :=
  ∀ (c : Config) (s t : State) (cs : List Command) (k : Nat), powerOn c = .next s →
    Host.Core.run Sys2Proof.core k { s with commands := cs } = .next t →
    t.CountsInRange ∧ t.RestWhenNotBusy ∧ t.BusyWhenTimed ∧ t.ElementLeftInGap ∧ t.NoElementBetween ∧
      t.StreamIsCharacter ∧ t.DeadlineAhead

/-! ### Element streams and the Code Table -/

/-- R81: from the byte of a character of at most seven elements, k shifts leave the byte of the elements after the k-th,
whose leading bit is the next element, and EOC exactly when none is left. -/
def Obligations.ShiftingConsumesElements : Prop :=
  ∀ (es : List Element) (k : Nat), es.length ≤ 7 → k ≤ es.length →
    consumeElement^[k] (packElements es) = packElements (es.drop k) ∧
    (∀ h : k < es.length, leadingElement (packElements (es.drop k)) = es[k]) ∧
    (consumeElement^[k] (packElements es) = eoc ↔ k = es.length)

/-- R80: every byte but 0x7F and 0xFF is the byte of exactly one sequence of 1 to 7 elements, every such sequence has exactly
one byte, and no byte has 8 elements or more. -/
def Obligations.BytesAreCharacters : Prop :=
  (∀ s : Byte, s ≠ 0x7F#8 → s ≠ 0xFF#8 →
    1 ≤ (elementsOf s).length ∧ (elementsOf s).length ≤ 7 ∧ packElements (elementsOf s) = s) ∧
  (∀ es : List Element, 1 ≤ es.length → es.length ≤ 7 →
    elementsOf (packElements es) = es ∧ packElements es ≠ 0x7F#8 ∧ packElements es ≠ 0xFF#8) ∧
  (∀ s : Byte, (elementsOf s).length ≤ 7)

/-- R85: under the default table, the NotEncodable codes are those listed and all outside 32 to 95, space alone is the word
space, and 54 codes are characters. -/
def Obligations.DefaultTableClasses : Prop :=
  (∀ c : Byte, lookupCode defaultCodeTable c = .notEncodable ↔
    c.toNat < 32 ∨ 95 < c.toNat ∨ c.toNat ∈ [35, 37, 42, 60, 62, 91, 92, 93, 94]) ∧
  (∀ c : Byte, lookupCode defaultCodeTable c = .wordSpace ↔ c = 32#8) ∧
  ((List.range 256).filter (fun n =>
    lookupCode defaultCodeTable (BitVec.ofNat 8 n) ≠ .notEncodable ∧
      lookupCode defaultCodeTable (BitVec.ofNat 8 n) ≠ .wordSpace)).length = 54

/-- R91 with R90: LOOKUP answers the ROM byte of a character, 0xFF for the word space, NOT_ENCODABLE otherwise, and changes
no state. -/
def Obligations.LookupAnswersTableEntry : Prop :=
  ∀ (s : State) (c : Byte),
    exec (.lookup c) s = .next { s with response := some (
      if h : 32 ≤ c.toNat ∧ c.toNat ≤ 95 then
        (if s.rom[c.toNat - 32]'(by omega) = 0xFF#8 then ⟨.ok, 0xFF#32⟩
         else if s.rom[c.toNat - 32]'(by omega) = 0x7F#8 then ⟨.notEncodable, 0#32⟩
         else ⟨.ok, (s.rom[c.toNat - 32]'(by omega)).setWidth 32⟩)
      else ⟨.notEncodable, 0#32⟩) }

/-- R93: no command changes what `lookup` answers, so LOOKUP of one code answers the same before and after any command. -/
def Obligations.LookupIsUnchangedByCommands : Prop :=
  ∀ (i : Instr) (s t : State), exec i s = .next t →
    (∀ c : Byte, lookupCode t.rom c = lookupCode s.rom c) ∧
    ∀ (c : Byte) (s' t' : State), exec (.lookup c) s = .next s' → exec (.lookup c) t = .next t' →
      s'.response = t'.response

/-! ### CONFIGURE -/

/-- R96: `unit_quotient` is the exact floor of UNIT_NUM / wpm on the value the binary32 pattern denotes, 0 for +Inf, and
Invalid for NaN, zero and every negative pattern. -/
def Obligations.UnitQuotientIsExactFloor : Prop :=
  ∀ (hz : Nat) (w : Word),
    let e := (w.extractLsb' 23 8).toNat
    let f := (w.extractLsb' 0 23).toNat
    ((e = 255 ∧ f ≠ 0) ∨ w.getLsbD 31 = true ∨ (e = 0 ∧ f = 0) → unitQuotient hz w = none) ∧
    (w = 0x7F800000#32 → unitQuotient hz w = some 0) ∧
    (w.getLsbD 31 = false → e < 255 → ¬ (e = 0 ∧ f = 0) →
      0 < speedValue w ∧ unitQuotient hz w = some ⌊(6 * hz / 5 : ℚ) / speedValue w⌋₊)

/-- R95: an accepted CONFIGURE writes UNIT and WPM and nothing else; an invalid speed is answered ERR_INVALID_SPEED and
changes nothing. UNIT fits its register (UNIT_MAX ≤ 2^24, R8). -/
def Obligations.ConfigureSetsSpeed : Prop :=
  ∀ (s : State) (w : Word), s.cfg.unitMax ≤ 2 ^ 24 →
    (∀ q, unitQuotient s.cfg.tickHz w = some q → ∃ u : Word, u.toNat = min (max q 1) s.cfg.unitMax ∧
      exec (.configure w) s = .next { s with unit := u, wpm := w, response := some ⟨.ok, 0#32⟩ }) ∧
    (unitQuotient s.cfg.tickHz w = none →
      exec (.configure w) s = .next { s with response := some ⟨.errInvalidSpeed, 0#32⟩ })

/-- R97 and the invariant UNIT ≥ 1 of R23: whatever the command, the unit stays within 1 to UNIT_MAX; and where R96's quotient
is within that range UNIT is it (R104). -/
def Obligations.UnitStaysInRange : Prop :=
  (∀ (i : Instr) (s t : State), s.cfg.legal = true → 1 ≤ s.unit.toNat → s.unit.toNat ≤ s.cfg.unitMax →
    exec i s = .next t → 1 ≤ t.unit.toNat ∧ t.unit.toNat ≤ t.cfg.unitMax) ∧
  (∀ (s t : State) (w : Word) (q : Nat), s.cfg.legal = true → unitQuotient s.cfg.tickHz w = some q → 1 ≤ q →
    q ≤ s.cfg.unitMax → exec (.configure w) s = .next t → t.unit.toNat = q)

/-- R101: WPM keeps the accepted bits, clamped or not, and READ of register 4 gives them; a rejected CONFIGURE leaves WPM and
UNIT as they were. -/
def Obligations.WpmRecordsOperand : Prop :=
  ∀ (s t : State) (w : Word), exec (.configure w) s = .next t →
    (t.response = some ⟨.ok, 0#32⟩ → t.wpm = w ∧
      exec (.read 4#8) t = .next { t with response := some ⟨.ok, w⟩ }) ∧
    (t.response ≠ some ⟨.ok, 0#32⟩ → t.wpm = s.wpm ∧ t.unit = s.unit) ∧
    (s.cfg = Config.default → w = 0x44FA0000#32 → t.wpm = 0x44FA0000#32 ∧ t.unit = 1#32)

/-- R100: the corner speeds at TICK_HZ = 1000, the quotient of each and the unit it gives. -/
def Obligations.CornerSpeeds : Prop :=
  (∀ p ∈ ([(0x41A00000, 60, 60), (0x41C80000, 48, 48), (0x41500000, 92, 92), (0x41480000, 96, 96), (0x40E00000, 171, 171),
      (0x40A00000, 240, 240), (0x40400000, 400, 400), (0x3F800000, 1200, 1200), (0x3F000000, 2400, 2400),
      (0x3DCCCCCD, 11999, 11999), (0x3CA3D70A, 60000, 60000), (0x3C8B4396, 70588, 65535), (0x43C80000, 3, 3),
      (0x44160000, 2, 2), (0x44960000, 1, 1), (0x44962000, 0, 1), (0x44FA0000, 0, 1), (0x7F7FFFFF, 0, 1),
      (0x7F800000, 0, 1)] : List (Word × Nat × Word)),
    unitQuotient 1000 p.1 = some p.2.1 ∧ ∀ s : State, s.cfg = Config.default →
      exec (.configure p.1) s = .next { s with unit := p.2.2, wpm := p.1, response := some ⟨.ok, 0#32⟩ }) ∧
  (∀ s : State, s.cfg = Config.default →
      exec (.configure 0x00000001#32) s = .next { s with
        unit := 65535#32, wpm := 0x00000001#32, response := some ⟨.ok, 0#32⟩ }) ∧
  (∀ w ∈ ([0x00000000, 0x80000000, 0xC1A00000, 0xFF800000, 0x7FC00000, 0x7F800001] : List Word),
    unitQuotient 1000 w = none ∧ ∀ s : State, s.cfg = Config.default →
      exec (.configure w) s = .next { s with response := some ⟨.errInvalidSpeed, 0#32⟩ })

/-! ### SEND and RESET -/

/-- R105, R107: an accepted SEND stores the text up to its first 0x00 in BUF from index 0, sets MSG_LEN to its length, puts
the sequencer at the start, sets BUSY, and changes nothing else; every other byte of BUF reads as before. The length fits its
register (MSG_CAP ≤ 65535, R8). That the bytes past the text keep their contents is the model's choice (log 4): the spec leaves
a byte at or past MSG_LEN any value (R52, 93 item 9). -/
def Obligations.SendStoresMessage : Prop :=
  ∀ (s : State) (text : List Byte), s.cfg.msgCap ≤ 65535 → text.length ≤ s.cfg.msgCap →
    ∃ t : State, exec (.send text) s = .next t ∧
      t.msgLen.toNat = text.findIdx (· == 0#8) ∧
      (∀ i, t.buf.read i = if i < text.findIdx (· == 0#8) then text[i]? else s.buf.read i) ∧
      t = { s with
        buf := t.buf, msgLen := t.msgLen, cursor := 0#16, charsSent := 0#16, stream := 0x7F#8, started := false,
        state := .idle, busy := true, response := some ⟨.ok, 0#32⟩ }

/-- R105, R108 items 1 and 2: a SEND of more than MSG_CAP bytes is answered ERR_TOO_LONG and changes nothing. -/
def Obligations.SendTooLongChangesNothing : Prop :=
  ∀ (s : State) (text : List Byte), s.cfg.msgCap < text.length →
    exec (.send text) s = .next { s with response := some ⟨.errTooLong, 0#32⟩ }

/-- R106: from the moment SEND completes the key is up; in dual-frequency mode TX_OUT = TX_EN and IND_OUT = 1. -/
def Obligations.SendReleasesKeyAtOnce : Prop :=
  ∀ (s t : State) (text : List Byte), text.length ≤ s.cfg.msgCap → exec (.send text) s = .next t →
    t.state.keyDown = false ∧ t.transmit = false ∧ t.txOut = (t.dualFreq && t.txEn) ∧ t.indOut = t.dualFreq

/-- R110: RESET clears the message and puts the block at rest; it keeps the settings, the counters and BUF, and the outputs are
all 0 in both keying modes. R52 has no command but SEND write BUF; that its bytes,
all at or past MSG_LEN then and so of any value (93 item 9), keep their contents is log 4. -/
def Obligations.ResetPutsAtRest : Prop :=
  ∀ s : State, ∃ t : State, exec .reset s = .next t ∧
    t = { s with
      msgLen := 0#16, cursor := 0#16, charsSent := 0#16, stream := 0x7F#8, started := false, state := .idle,
      busy := false, response := some ⟨.ok, 0#32⟩ } ∧
    t.transmit = false ∧ t.txOut = false ∧ t.indOut = false

/-- R54, and for RESET R112 too: RESET, READ, LOOKUP, the setters and CONFIGURE give the same state when repeated
back-to-back. The states compared include the last response, a field of the model's own (log 3). -/
def Obligations.RepeatingGivesSameState : Prop :=
  ∀ (i : Instr) (s t : State), i ≠ .tick → (∀ text, i ≠ .send text) → exec i s = .next t → exec i t = .next t

/-- R114: SEND, RESET and the expiry of EndOfMessageDelay alone write MSG_LEN, and an accepted SEND alone writes BUF (R52). -/
def Obligations.MessageWriters : Prop :=
  ∀ (i : Instr) (s t : State), exec i s = .next t →
    (t.buf ≠ s.buf → ∃ text, i = .send text ∧ text.length ≤ s.cfg.msgCap) ∧
    (t.msgLen ≠ s.msgLen → (∃ text, i = .send text ∧ text.length ≤ s.cfg.msgCap) ∨ i = .reset ∨
      (i = .tick ∧ s.state = .endOfMessageDelay ∧ t.state = .idle ∧ t.msgLen = 0#16))

/-- R31: an accepted SEND alone sets BUSY; RESET and the expiry of EndOfMessageDelay alone clear it. -/
def Obligations.BusyWriters : Prop :=
  ∀ (i : Instr) (s t : State), exec i s = .next t →
    (s.busy = false → t.busy = true → ∃ text, i = .send text ∧ text.length ≤ s.cfg.msgCap) ∧
    (s.busy = true → t.busy = false → i = .reset ∨
      (i = .tick ∧ s.state = .endOfMessageDelay ∧ State.expired { s with tick := addN s.cfg.tickW s.tick 1 } = true))

/-! ### Setters and READ -/

/-- R155 to R157: operand 0 or 1 sets the command's own flag to it and changes nothing else. -/
def Obligations.FlagSettersWriteTheirFlag : Prop :=
  ∀ (s : State) (b : Byte), b = 0#8 ∨ b = 1#8 →
    exec (.setPreamble b) s = .next { s with preambleEn := decide (b = 1#8), response := some ⟨.ok, 0#32⟩ } ∧
    exec (.setDualfreq b) s = .next { s with dualFreq := decide (b = 1#8), response := some ⟨.ok, 0#32⟩ } ∧
    exec (.setTxen b) s = .next { s with txEn := decide (b = 1#8), response := some ⟨.ok, 0#32⟩ }

/-- R155 to R157: any other operand is answered ERR_BAD_OPERAND and changes nothing. -/
def Obligations.FlagSettersRejectOtherOperands : Prop :=
  ∀ (s : State) (b : Byte), 2 ≤ b.toNat →
    exec (.setPreamble b) s = .next { s with response := some ⟨.errBadOperand, 0#32⟩ } ∧
    exec (.setDualfreq b) s = .next { s with response := some ⟨.errBadOperand, 0#32⟩ } ∧
    exec (.setTxen b) s = .next { s with response := some ⟨.errBadOperand, 0#32⟩ }

/-- R158: every operand is legal and stored as given. -/
def Obligations.SetRepeatStoresMinutes : Prop :=
  ∀ (s : State) (m : Byte),
    exec (.setRepeat m) s = .next { s with repeatMin := m, response := some ⟨.ok, 0#32⟩ }

/-- R159: what the setters and CONFIGURE answer does not depend on the state but for the parameters, and none of them changes
STATE, END_TICK, CURSOR, STREAM, BUSY or TICK. -/
def Obligations.SettersKeepSequencer : Prop :=
  ∀ (i : Instr), ((∃ b, i = .setPreamble b ∨ i = .setDualfreq b ∨ i = .setTxen b ∨ i = .setRepeat b) ∨
      ∃ w, i = .configure w) →
    (∀ s t : State, exec i s = .next t → t.state = s.state ∧ t.endTick = s.endTick ∧ t.cursor = s.cursor ∧
      t.stream = s.stream ∧ t.busy = s.busy ∧ t.tick = s.tick) ∧
    (∀ s s' t t' : State, s.cfg = s'.cfg → exec i s = .next t → exec i s' = .next t' → t.response = t'.response)

/-- R160, R163: READ of registers 0 to 9 answers the register, zero-extended to 32 bits, and changes no state; any other
number is answered ERR_BAD_OPERAND. -/
def Obligations.ReadAnswersRegister : Prop :=
  ∀ (s : State) (r : Byte),
    exec (.read r) s = .next { s with response := some (
      match [s.statusWord, s.tick.setWidth 32, s.charsSent.setWidth 32, s.unit, s.wpm, s.repeatMin.setWidth 32,
          s.cursor.setWidth 32, s.msgLen.setWidth 32, s.endTick.setWidth 32, s.streamWord][r.toNat]? with
      | some v => ⟨.ok, v⟩
      | none => ⟨.errBadOperand, 0#32⟩) }

/-- R162: the fields of register 0, bit by bit, and its power-on value. -/
def Obligations.StatusFields : Prop :=
  (∀ s : State,
    s.statusWord.getLsbD 0 = s.busy ∧ s.statusWord.getLsbD 1 = s.transmit ∧ s.statusWord.getLsbD 2 = s.indOut ∧
    s.statusWord.getLsbD 3 = s.txOut ∧ s.statusWord.getLsbD 4 = s.preambleEn ∧ s.statusWord.getLsbD 5 = s.dualFreq ∧
    s.statusWord.getLsbD 6 = s.txEn ∧ s.statusWord.getLsbD 7 = false ∧
    s.statusWord.extractLsb' 8 4 = s.state.code ∧ ∀ k, 12 ≤ k → s.statusWord.getLsbD k = false) ∧
  State.reset.statusWord = 0x00000040#32

/-- R164: the fields of register 9, and the rule's example. -/
def Obligations.StreamRegisterFields : Prop :=
  (∀ s : State, s.streamWord.extractLsb' 0 8 = s.stream ∧ s.streamWord.getLsbD 8 = s.started ∧
    ∀ k, 9 ≤ k → s.streamWord.getLsbD k = false) ∧
  (∀ s : State, s.stream = consumeElement 0x5F#8 → s.started = true → s.streamWord = 0x000001BF#32)

/-! ### TICK -/

/-- R21, R116, R181: a TICK adds exactly 1 to TICK modulo 2^TICK_W, and no other command changes it. -/
def Obligations.OnlyTickCounts : Prop :=
  ∀ (i : Instr) (s t : State), s.cfg.tickW ≤ 64 → exec i s = .next t →
    (i = .tick → t.tick.toNat = (s.tick.toNat + 1) % 2 ^ s.cfg.tickW) ∧ (i ≠ .tick → t.tick = s.tick)

/-- R152: at rest a TICK changes only TICK, and the outputs stay 0. The invariant rules out the states with BUSY = 0 and STATE
not Idle, which no run reaches. -/
def Obligations.TickAtRestOnlyCounts : Prop :=
  ∀ s : State, s.Inv → s.busy = false →
    ∃ t : State, exec .tick s = .next t ∧
      t = { s with tick := addN s.cfg.tickW s.tick 1, response := some ⟨.ok, 0#32⟩ } ∧
      s.transmit = false ∧ s.txOut = false ∧ s.indOut = false ∧
      t.transmit = false ∧ t.txOut = false ∧ t.indOut = false

/-- R117, R121: a TICK changes only TICK in Idle unless BUSY and TX_EN are both 1, and in a timed state that has not expired
(R119: δ = TICK − END_TICK modulo 2^TICK_W is not in 1 .. 2^(TICK_W−1) − 1). -/
def Obligations.TickHoldsState : Prop :=
  ∀ s : State,
    (s.state = .idle ∧ ¬ (s.busy = true ∧ s.txEn = true)) ∨
      (s.state ≠ .idle ∧ ¬ (1 ≤ subN s.cfg.tickW (addN s.cfg.tickW s.tick 1) s.endTick ∧
        subN s.cfg.tickW (addN s.cfg.tickW s.tick 1) s.endTick < 2 ^ (s.cfg.tickW - 1))) →
    exec .tick s = .next { s with tick := addN s.cfg.tickW s.tick 1, response := some ⟨.ok, 0#32⟩ }

/-- R123: the first decision of a pass with PREAMBLE_EN set enters Preamble for 7u ticks. -/
def Obligations.PreambleBeginsPass : Prop :=
  ∀ s : State, s.state = .idle → s.busy = true → s.txEn = true → s.started = false → s.preambleEn = true →
    exec .tick s = .next { s with
      tick := addN s.cfg.tickW s.tick 1, started := true, state := .preamble,
      endTick := addN s.cfg.tickW (addN s.cfg.tickW s.tick 1) (7 * s.unit.toNat - 1),
      response := some ⟨.ok, 0#32⟩ }

/-- R125: a decision with an element left keys it, a dah for 3u ticks if the leading bit is 1, a dit for u ticks if it is 0,
and shifts the stream. -/
def Obligations.DecisionKeysNextElement : Prop :=
  ∀ s : State, s.state = .idle → s.busy = true → s.txEn = true → s.started = true → s.stream ≠ 0x7F#8 →
    exec .tick s = .next { s with
      tick := addN s.cfg.tickW s.tick 1,
      state := if s.stream.getLsbD 7 then .dah else .dit,
      endTick := addN s.cfg.tickW (addN s.cfg.tickW s.tick 1)
        ((if s.stream.getLsbD 7 then 3 * s.unit.toNat else s.unit.toNat) - 1),
      stream := (s.stream <<< 1) ||| 1#8, response := some ⟨.ok, 0#32⟩ }

/-- R124: a decision with no element left takes the character at CURSOR: a word space enters WordGap for 7u ticks, a
NotEncodable character is skipped in Idle, a character's first element is keyed; STARTED is set. -/
def Obligations.DecisionFetchesCharacter : Prop :=
  ∀ (s : State) (b : Byte), s.state = .idle → s.busy = true → s.txEn = true →
    (s.started = true ∧ s.stream = 0x7F#8 ∨ s.started = false ∧ s.preambleEn = false) →
    s.cursor.toNat < s.msgLen.toNat → s.buf.read s.cursor.toNat = some b →
    exec .tick s = .next (
      match lookupCode s.rom b with
      | .wordSpace => { s with
          tick := addN s.cfg.tickW s.tick 1, started := true, cursor := s.cursor + 1#16, stream := 0x7F#8,
          state := .wordGap, endTick := addN s.cfg.tickW (addN s.cfg.tickW s.tick 1) (7 * s.unit.toNat - 1),
          response := some ⟨.ok, 0#32⟩ }
      | .notEncodable => { s with
          tick := addN s.cfg.tickW s.tick 1, started := true, cursor := s.cursor + 1#16, stream := 0x7F#8,
          response := some ⟨.ok, 0#32⟩ }
      | .stream e => { s with
          tick := addN s.cfg.tickW s.tick 1, started := true, state := if e.getLsbD 7 then .dah else .dit,
          endTick := addN s.cfg.tickW (addN s.cfg.tickW s.tick 1)
            ((if e.getLsbD 7 then 3 * s.unit.toNat else s.unit.toNat) - 1),
          stream := (e <<< 1) ||| 1#8, response := some ⟨.ok, 0#32⟩ })

/-- R131: a decision at the end of the buffer enters EndOfMessageDelay for 7u ticks if REPEAT_MIN = 0, else
MessageRepeatDelay for max(7u, min(REPEAT_MIN, 30)·MINUTE_TICKS) ticks. -/
def Obligations.EndOfBufferEntersDelay : Prop :=
  ∀ s : State, s.state = .idle → s.busy = true → s.txEn = true →
    (s.started = true ∧ s.stream = 0x7F#8 ∨ s.started = false ∧ s.preambleEn = false) → s.cursor = s.msgLen →
    exec .tick s = .next { s with
      tick := addN s.cfg.tickW s.tick 1, started := true,
      state := if s.repeatMin = 0#8 then .endOfMessageDelay else .messageRepeatDelay,
      endTick := addN s.cfg.tickW (addN s.cfg.tickW s.tick 1)
        ((if s.repeatMin = 0#8 then 7 * s.unit.toNat
          else max (7 * s.unit.toNat) (min s.repeatMin.toNat 30 * (60 * s.cfg.tickHz))) - 1),
      response := some ⟨.ok, 0#32⟩ }

/-- R126: an expired Dit or Dah with an element left enters its trailing gap for u ticks. -/
def Obligations.ElementIsFollowedByGap : Prop :=
  ∀ s : State, s.state = .dit ∨ s.state = .dah → s.stream ≠ 0x7F#8 →
    State.expired { s with tick := addN s.cfg.tickW s.tick 1 } = true →
    exec .tick s = .next { s with
      tick := addN s.cfg.tickW s.tick 1, state := if s.state = .dit then .ditDelay else .dahDelay,
      endTick := addN s.cfg.tickW (addN s.cfg.tickW s.tick 1) (s.unit.toNat - 1),
      response := some ⟨.ok, 0#32⟩ }

/-- R127: an expired Dit or Dah that was the last element counts its character and passes it, and enters the end-of-message
delay of R131 at the end of the buffer, WordGap (consuming the space) before a space, CharGap before anything else. TX_EN is
not tested. -/
def Obligations.LastElementEndsCharacter : Prop :=
  ∀ s : State, s.state = .dit ∨ s.state = .dah → s.stream = 0x7F#8 →
    s.cursor.toNat < s.msgLen.toNat →
    State.expired { s with tick := addN s.cfg.tickW s.tick 1 } = true →
    (s.cursor + 1#16 = s.msgLen → exec .tick s = .next { s with
      tick := addN s.cfg.tickW s.tick 1, charsSent := s.charsSent + 1#16, cursor := s.cursor + 1#16,
      state := if s.repeatMin = 0#8 then .endOfMessageDelay else .messageRepeatDelay,
      endTick := addN s.cfg.tickW (addN s.cfg.tickW s.tick 1)
        ((if s.repeatMin = 0#8 then 7 * s.unit.toNat
          else max (7 * s.unit.toNat) (min s.repeatMin.toNat 30 * (60 * s.cfg.tickHz))) - 1),
      response := some ⟨.ok, 0#32⟩ }) ∧
    (∀ b, s.cursor + 1#16 ≠ s.msgLen → s.buf.read (s.cursor.toNat + 1) = some b →
      lookupCode s.rom b = .wordSpace → exec .tick s = .next { s with
        tick := addN s.cfg.tickW s.tick 1, charsSent := s.charsSent + 1#16, cursor := s.cursor + 2#16,
        state := .wordGap, endTick := addN s.cfg.tickW (addN s.cfg.tickW s.tick 1) (7 * s.unit.toNat - 1),
        response := some ⟨.ok, 0#32⟩ }) ∧
    (∀ b, s.cursor + 1#16 ≠ s.msgLen → s.buf.read (s.cursor.toNat + 1) = some b →
      lookupCode s.rom b ≠ .wordSpace → exec .tick s = .next { s with
        tick := addN s.cfg.tickW s.tick 1, charsSent := s.charsSent + 1#16, cursor := s.cursor + 1#16,
        state := .charGap, endTick := addN s.cfg.tickW (addN s.cfg.tickW s.tick 1) (3 * s.unit.toNat - 1),
        response := some ⟨.ok, 0#32⟩ })

/-- R117, R122, R128, R130: an expired gap, while the message is in flight, acts in the same TICK as Idle does, and with TX_EN
= 0 holds in Idle. -/
def Obligations.GapContinuesThroughIdle : Prop :=
  ∀ s : State, s.state = .ditDelay ∨ s.state = .dahDelay ∨ s.state = .charGap ∨ s.state = .wordGap →
    s.busy = true → State.expired { s with tick := addN s.cfg.tickW s.tick 1 } = true →
    exec .tick s = exec .tick { s with state := .idle }

/-- R129: an expired Preamble clears PREAMBLE_EN and acts in the same TICK as Idle does. -/
def Obligations.PreambleClearsItsFlag : Prop :=
  ∀ s : State, s.state = .preamble → s.busy = true →
    State.expired { s with tick := addN s.cfg.tickW s.tick 1 } = true →
    exec .tick s = exec .tick { s with state := .idle, preambleEn := false }

/-- R134: an expired EndOfMessageDelay puts the block at rest. -/
def Obligations.EndOfMessageDelayEndsMessage : Prop :=
  ∀ s : State, s.state = .endOfMessageDelay →
    State.expired { s with tick := addN s.cfg.tickW s.tick 1 } = true →
    exec .tick s = .next { s with
      tick := addN s.cfg.tickW s.tick 1, msgLen := 0#16, cursor := 0#16, charsSent := 0#16, stream := 0x7F#8,
      started := false, busy := false, state := .idle, response := some ⟨.ok, 0#32⟩ }

/-- R136: an expired MessageRepeatDelay puts the position back to the start of the same message and makes the first decision
of the next pass in the same TICK. -/
def Obligations.RepeatDelayStartsNextPass : Prop :=
  ∀ s : State, s.state = .messageRepeatDelay → s.busy = true →
    State.expired { s with tick := addN s.cfg.tickW s.tick 1 } = true →
    exec .tick s = exec .tick { s with
      state := .idle, cursor := 0#16, charsSent := 0#16, stream := 0x7F#8, started := false }

/-- R138 with R118, R119 and R153: a timed state entered with duration d holds through the next d − 1 TICKs, whether or not TICK
wraps, and the d-th TICK makes its exit. -/
def Obligations.TimedStateLastsItsDuration : Prop :=
  ∀ (s : State) (S : KeyerState) (d k : Nat), 24 ≤ s.cfg.tickW → s.cfg.tickW ≤ 64 → s.tick.toNat < 2 ^ s.cfg.tickW →
    S ≠ .idle → 1 ≤ d → d < 2 ^ (s.cfg.tickW - 1) →
    (k < d → runTicks k (s.enter S d) = .next { s.enter S d with
      tick := addN s.cfg.tickW s.tick k, response := if k = 0 then s.response else some ⟨.ok, 0#32⟩ }) ∧
    runTicks d (s.enter S d) = .next
      ((State.exitTimed { s.enter S d with
        tick := addN s.cfg.tickW s.tick d,
        response := if d = 1 then s.response else some ⟨.ok, 0#32⟩ }).respond .ok 0#32)

/-- R143: in a message sent once, with u = UNIT and no later character, the key is up and BUSY is 1 for the 7u ticks after the
last tick of the last element, and the tick after them has BUSY = 0. -/
def Obligations.MessageSentOnceComesToRest : Prop :=
  ∀ s : State, s.Inv → s.state = .dit ∨ s.state = .dah → s.stream = 0x7F#8 → s.tick = s.endTick →
    s.cursor.toNat + 1 = s.msgLen.toNat → s.repeatMin = 0#8 →
    (∀ k, 1 ≤ k → k ≤ 7 * s.unit.toNat → ∃ t, runTicks k s = .next t ∧ t.state = .endOfMessageDelay ∧ t.busy = true ∧
      t.state.keyDown = false ∧ t.tick = addN s.cfg.tickW s.tick k) ∧
    (∃ t, runTicks (7 * s.unit.toNat + 1) s = .next t ∧ t.state = .idle ∧ t.busy = false ∧ t.msgLen = 0#16 ∧
      t.tick = addN s.cfg.tickW s.tick (7 * s.unit.toNat + 1))

/-- R140: within a character, from the first tick of an element with another element left, the key stays down for the
element's d ticks, is up for u ticks, and the next element begins at the tick after them. -/
def Obligations.ElementThenGapThenElement : Prop :=
  ∀ (s : State) (S : KeyerState) (d : Nat), s.Inv → S = .dit ∧ d = s.unit.toNat ∨ S = .dah ∧ d = 3 * s.unit.toNat →
    s.busy = true → s.txEn = true → s.started = true → s.stream ≠ 0x7F#8 →
    (∀ k < d, ∃ t, runTicks k (s.enter S d) = .next t ∧ t.state = S ∧ t.transmit = true) ∧
    (∀ k, d ≤ k → k < d + s.unit.toNat → ∃ t, runTicks k (s.enter S d) = .next t ∧ t.transmit = false ∧
      t.state = if S = .dit then .ditDelay else .dahDelay) ∧
    (∃ t, runTicks (d + s.unit.toNat) (s.enter S d) = .next t ∧ t.transmit = true ∧
      t.state = (if s.stream.getLsbD 7 then .dah else .dit) ∧ t.stream = (s.stream <<< 1) ||| 1#8 ∧
      t.tick = addN s.cfg.tickW s.tick (d + s.unit.toNat))

/-! ### Outputs and modes -/

/-- R145, R146: KEY_DOWN holds in Preamble, Dit and Dah and in no other state, and the output equations. -/
def Obligations.OutputEquations : Prop :=
  ∀ s : State, (s.state.keyDown = true ↔ s.state = .preamble ∨ s.state = .dit ∨ s.state = .dah) ∧
    (s.transmit = true ↔ s.state.keyDown = true ∧ s.txEn = true) ∧
    (s.dualFreq = false → s.txOut = s.transmit ∧ s.indOut = s.transmit) ∧
    (s.dualFreq = true → s.indOut = s.busy ∧
      (s.txOut = true ↔ s.busy = true ∧ s.txEn = true ∧ s.state ≠ .messageRepeatDelay))

/-- R34, R149: while TX_EN = 0 neither key line is driven in either mode (TRANSMIT = TX_OUT = 0), and no command but SET_TXEN
keys anything: no TICK enters Preamble, Dit or Dah, which can only run out. -/
def Obligations.MutedNeverKeys : Prop :=
  (∀ s : State, s.txEn = false → s.transmit = false ∧ s.txOut = false) ∧
  (∀ (i : Instr) (s t : State), s.txEn = false → exec i s = .next t → (∀ b, i ≠ .setTxen b) →
    t.txEn = false ∧ t.transmit = false ∧ t.txOut = false ∧
    (t.state.keyDown = true → t.state = s.state ∧ t.endTick = s.endTick ∧ t.stream = s.stream))

/-- R33, R156: DUAL_FREQ changes nothing but the two output lines. Every command but SET_DUALFREQ and READ, from two states that
differ in DUAL_FREQ alone, gives two states that differ in it alone, with the same TRANSMIT. -/
def Obligations.DualFreqOnlyDrivesOutputs : Prop :=
  ∀ (i : Instr) (s t : State) (b : Bool), (∀ x, i ≠ .setDualfreq x) → (∀ r, i ≠ .read r) → exec i s = .next t →
    exec i { s with dualFreq := b } = .next { t with dualFreq := b } ∧
    State.transmit { t with dualFreq := b } = t.transmit

/-- R24: no sequencing rule reads WPM. A TICK from two states that differ in WPM alone gives two states that differ in it
alone. -/
def Obligations.TickIgnoresWpm : Prop :=
  ∀ (s t : State) (w : Word), exec .tick s = .next t → exec .tick { s with wpm := w } = .next { t with wpm := w }
end

