-- ==== Sys2Proof/Laws/Counter.lean ====
section
/-! SUPPORT. The modular arithmetic of the counters, and the half-range comparison of 43_tick.md R119. -/
namespace Sys2Proof.Machine

/-- A sum stays below 2^N. -/
theorem addN_toNat {n : Nat} (hn : n ≤ 64) (x : Counter) (k : Nat) : (addN n x k).toNat = (x.toNat + k) % 2 ^ n := by
  have h : (x.toNat + k) % 2 ^ n < 2 ^ 64 :=
    (Nat.mod_lt _ (Nat.two_pow_pos n)).trans_le (Nat.pow_le_pow_right (by decide) hn)
  simp only [addN, BitVec.toNat_ofNat]
  exact Nat.mod_eq_of_lt h

theorem addN_lt {n : Nat} (hn : n ≤ 64) (x : Counter) (k : Nat) : (addN n x k).toNat < 2 ^ n := by
  rw [addN_toNat hn]
  exact Nat.mod_lt _ (Nat.two_pow_pos n)

theorem subN_lt (n : Nat) (x y : Counter) : subN n x y < 2 ^ n := Nat.mod_lt _ (Nat.two_pow_pos n)

/-- Two additions are one. -/
theorem addN_addN {n : Nat} (hn : n ≤ 64) (x : Counter) (j k : Nat) : addN n (addN n x j) k = addN n x (j + k) := by
  apply BitVec.eq_of_toNat_eq
  rw [addN_toNat hn, addN_toNat hn, addN_toNat hn, Nat.mod_add_mod, Nat.add_assoc]

theorem addN_zero {n : Nat} (hn : n ≤ 64) {x : Counter} (h : x.toNat < 2 ^ n) : addN n x 0 = x := by
  apply BitVec.eq_of_toNat_eq
  rw [addN_toNat hn, Nat.add_zero, Nat.mod_eq_of_lt h]

/-- Subtracting what was added, from a later sum: the difference of the two amounts. -/
theorem subN_addN_of_le {n : Nat} (hn : n ≤ 64) (x : Counter) {j k : Nat} (hjk : j ≤ k) :
    subN n (addN n x k) (addN n x j) = (k - j) % 2 ^ n := by
  simp only [subN, addN_toNat hn, Nat.mod_mod]
  generalize hN : 2 ^ n = N
  have hpos : 0 < N := hN ▸ Nat.two_pow_pos n
  obtain ⟨d, rfl⟩ : ∃ d, k = j + d := ⟨k - j, by omega⟩
  have hlt := Nat.mod_lt (x.toNat + j) hpos
  have e : (x.toNat + (j + d)) % N = ((x.toNat + j) % N + d) % N := by rw [Nat.mod_add_mod, Nat.add_assoc]
  rw [e, Nat.mod_add_mod, show (x.toNat + j) % N + d + (N - (x.toNat + j) % N) = d + N by omega, Nat.add_mod_right,
    Nat.add_sub_cancel_left]

/-- Subtracting a later sum from an earlier one, within one turn of the counter: N less the difference. -/
theorem subN_addN_of_lt {n : Nat} (hn : n ≤ 64) (x : Counter) {j k : Nat} (hkj : k < j) (hj : j - k < 2 ^ n) :
    subN n (addN n x k) (addN n x j) = 2 ^ n - (j - k) := by
  simp only [subN, addN_toNat hn, Nat.mod_mod]
  generalize 2 ^ n = N at *
  obtain ⟨d, rfl⟩ : ∃ d, j = k + d := ⟨j - k, by omega⟩
  have hpos : 0 < N := by omega
  have hlt := Nat.mod_lt (x.toNat + k) hpos
  rw [show x.toNat + (k + d) = x.toNat + k + d by omega, Nat.add_mod (x.toNat + k) d N,
    Nat.mod_eq_of_lt (show d < N by omega)]
  generalize (x.toNat + k) % N = a at *
  by_cases h : a + d < N
  · rw [Nat.mod_eq_of_lt h, show a + (N - (a + d)) = N - (k + d - k) by omega, Nat.mod_eq_of_lt (by omega)]
  · have e : (a + d) % N = a + d - N := by
      rw [Nat.mod_eq_sub_mod (by omega), Nat.mod_eq_of_lt (by omega)]
    rw [e, show a + (N - (a + d - N)) = (N - (k + d - k)) + N by omega, Nat.add_mod_right, Nat.mod_eq_of_lt (by omega)]

/-- What `expired` says (43_tick.md R119). -/
theorem State.expired_iff (s : State) :
    s.expired = true ↔ 1 ≤ subN s.cfg.tickW s.tick s.endTick ∧ subN s.cfg.tickW s.tick s.endTick < 2 ^ (s.cfg.tickW - 1) := by
  simp [State.expired]

end Sys2Proof.Machine
end

