-- ==== Sys2Proof/Laws/Decode.lean ====
section
/-! SUPPORT. The small lemmas of the opcode map and of the byte fields of a frame. -/
namespace Sys2Proof

/-- The opcode map read back. -/
@[simp] theorem Opcode.ofByte_byte (o : Opcode) : Opcode.ofByte o.byte = some o := by cases o <;> decide

/-- A byte is an opcode exactly when it is the byte of one (30_encoding.md R71). -/
theorem Opcode.ofByte_eq_some {b : Byte} {o : Opcode} : Opcode.ofByte b = some o ↔ b = o.byte := by
  constructor
  · intro h
    unfold Opcode.ofByte at h
    split_ifs at h
    all_goals cases h; assumption
  · rintro rfl
    exact Opcode.ofByte_byte o

/-- The reserved opcodes: 0x00 and 0x0B to 0xFF (30_encoding.md R71, R74). -/
theorem Opcode.ofByte_eq_none {b : Byte} : Opcode.ofByte b = none ↔ b = 0x00#8 ∨ 0x0B ≤ b.toNat := by
  revert b
  decide

/-- What the decoder reads after an opcode: the operand bytes by the opcode's format (30_encoding.md R66 to R69). -/
theorem decode_of_opcode {op : Byte} {o : Opcode} (h : Opcode.ofByte op = some o) (body : List Byte) :
    decode (op :: body) =
      match o with
      | .tick => decodeN .tick body
      | .configure => decodeW .configure body
      | .send => decodeS .send body
      | .reset => decodeN .reset body
      | .setPreamble => decodeB .setPreamble body
      | .setDualfreq => decodeB .setDualfreq body
      | .setTxen => decodeB .setTxen body
      | .setRepeat => decodeB .setRepeat body
      | .read => decodeB .read body
      | .lookup => decodeB .lookup body := by
  cases o <;> simp [decode, h]

/-- A reserved opcode is rejected by name alone, and malformed with anything after it (60_exceptions.md R172). -/
theorem decode_of_reserved {op : Byte} (h : Opcode.ofByte op = none) (body : List Byte) :
    decode (op :: body) = .error (if body = [] then .reservedOpcode op else .malformed) := by
  cases body <;> simp [decode, h]

/-- A 32-bit value is its four bytes, least significant first (20_memory.md R50). -/
theorem wordOfBytes_byteOfWord (w : Word) :
    wordOfBytes (byteOfWord w 0) (byteOfWord w 1) (byteOfWord w 2) (byteOfWord w 3) = w := by
  apply BitVec.eq_of_toNat_eq
  have hw := w.isLt
  simp only [wordOfBytes, byteOfWord, BitVec.toNat_append, BitVec.extractLsb'_toNat, Nat.shiftRight_eq_div_pow]
  rw [← Nat.shiftLeft_add_eq_or_of_lt (by omega), ← Nat.shiftLeft_add_eq_or_of_lt (by omega),
    ← Nat.shiftLeft_add_eq_or_of_lt (by omega)]
  simp only [Nat.shiftLeft_eq]
  omega

/-- The bytes of a word made of four bytes are those bytes. -/
theorem byteOfWord_wordOfBytes (b0 b1 b2 b3 : Byte) :
    byteOfWord (wordOfBytes b0 b1 b2 b3) 0 = b0 ∧ byteOfWord (wordOfBytes b0 b1 b2 b3) 1 = b1 ∧
      byteOfWord (wordOfBytes b0 b1 b2 b3) 2 = b2 ∧ byteOfWord (wordOfBytes b0 b1 b2 b3) 3 = b3 := by
  have h0 := b0.isLt
  have h1 := b1.isLt
  have h2 := b2.isLt
  have h3 := b3.isLt
  refine ⟨?_, ?_, ?_, ?_⟩ <;> apply BitVec.eq_of_toNat_eq <;>
    simp only [wordOfBytes, byteOfWord, BitVec.toNat_append, BitVec.extractLsb'_toNat, Nat.shiftRight_eq_div_pow] <;>
    rw [← Nat.shiftLeft_add_eq_or_of_lt (by omega), ← Nat.shiftLeft_add_eq_or_of_lt (by omega),
      ← Nat.shiftLeft_add_eq_or_of_lt (by omega)] <;>
    simp only [Nat.shiftLeft_eq] <;> omega

/-- The length field an encoder writes reads back as the length it counts (30_encoding.md R69). -/
theorem lengthField_ofNat {n : Nat} (h : n ≤ 65535) :
    lengthField (BitVec.ofNat 8 n) (BitVec.ofNat 8 (n / 256)) = n := by
  simp only [lengthField, BitVec.toNat_ofNat]
  omega

/-- A length field is at most 65535. -/
theorem lengthField_le (lo hi : Byte) : lengthField lo hi ≤ 65535 := by
  have h0 := lo.isLt
  have h1 := hi.isLt
  simp only [lengthField]
  omega

end Sys2Proof
end

