-- ==== Sys2Proof/Laws/State.lean ====
section
/-! SUPPORT. One lemma per field per update of State, so that no proof unfolds a record update. -/
namespace Sys2Proof.Machine

@[simp] theorem State.respond_cfg (s : State) (rc : ResultCode) (v : Word) : (s.respond rc v).cfg = s.cfg := rfl
@[simp] theorem State.respond_tick (s : State) (rc : ResultCode) (v : Word) : (s.respond rc v).tick = s.tick := rfl
@[simp] theorem State.respond_endTick (s : State) (rc : ResultCode) (v : Word) : (s.respond rc v).endTick = s.endTick := rfl
@[simp] theorem State.respond_unit (s : State) (rc : ResultCode) (v : Word) : (s.respond rc v).unit = s.unit := rfl
@[simp] theorem State.respond_wpm (s : State) (rc : ResultCode) (v : Word) : (s.respond rc v).wpm = s.wpm := rfl
@[simp] theorem State.respond_state (s : State) (rc : ResultCode) (v : Word) : (s.respond rc v).state = s.state := rfl
@[simp] theorem State.respond_msgLen (s : State) (rc : ResultCode) (v : Word) : (s.respond rc v).msgLen = s.msgLen := rfl
@[simp] theorem State.respond_cursor (s : State) (rc : ResultCode) (v : Word) : (s.respond rc v).cursor = s.cursor := rfl
@[simp] theorem State.respond_charsSent (s : State) (rc : ResultCode) (v : Word) : (s.respond rc v).charsSent = s.charsSent := rfl
@[simp] theorem State.respond_stream (s : State) (rc : ResultCode) (v : Word) : (s.respond rc v).stream = s.stream := rfl
@[simp] theorem State.respond_started (s : State) (rc : ResultCode) (v : Word) : (s.respond rc v).started = s.started := rfl
@[simp] theorem State.respond_busy (s : State) (rc : ResultCode) (v : Word) : (s.respond rc v).busy = s.busy := rfl
@[simp] theorem State.respond_preambleEn (s : State) (rc : ResultCode) (v : Word) : (s.respond rc v).preambleEn = s.preambleEn := rfl
@[simp] theorem State.respond_dualFreq (s : State) (rc : ResultCode) (v : Word) : (s.respond rc v).dualFreq = s.dualFreq := rfl
@[simp] theorem State.respond_txEn (s : State) (rc : ResultCode) (v : Word) : (s.respond rc v).txEn = s.txEn := rfl
@[simp] theorem State.respond_repeatMin (s : State) (rc : ResultCode) (v : Word) : (s.respond rc v).repeatMin = s.repeatMin := rfl
@[simp] theorem State.respond_buf (s : State) (rc : ResultCode) (v : Word) : (s.respond rc v).buf = s.buf := rfl
@[simp] theorem State.respond_commands (s : State) (rc : ResultCode) (v : Word) : (s.respond rc v).commands = s.commands := rfl
@[simp] theorem State.respond_issuer (s : State) (rc : ResultCode) (v : Word) : (s.respond rc v).issuer = s.issuer := rfl
@[simp] theorem State.respond_response (s : State) (rc : ResultCode) (v : Word) : (s.respond rc v).response = some ⟨rc, v⟩ := rfl

@[simp] theorem State.reject_cfg (s : State) (rc : ResultCode) : (s.reject rc).cfg = s.cfg := rfl
@[simp] theorem State.reject_tick (s : State) (rc : ResultCode) : (s.reject rc).tick = s.tick := rfl
@[simp] theorem State.reject_endTick (s : State) (rc : ResultCode) : (s.reject rc).endTick = s.endTick := rfl
@[simp] theorem State.reject_unit (s : State) (rc : ResultCode) : (s.reject rc).unit = s.unit := rfl
@[simp] theorem State.reject_wpm (s : State) (rc : ResultCode) : (s.reject rc).wpm = s.wpm := rfl
@[simp] theorem State.reject_state (s : State) (rc : ResultCode) : (s.reject rc).state = s.state := rfl
@[simp] theorem State.reject_msgLen (s : State) (rc : ResultCode) : (s.reject rc).msgLen = s.msgLen := rfl
@[simp] theorem State.reject_cursor (s : State) (rc : ResultCode) : (s.reject rc).cursor = s.cursor := rfl
@[simp] theorem State.reject_charsSent (s : State) (rc : ResultCode) : (s.reject rc).charsSent = s.charsSent := rfl
@[simp] theorem State.reject_stream (s : State) (rc : ResultCode) : (s.reject rc).stream = s.stream := rfl
@[simp] theorem State.reject_started (s : State) (rc : ResultCode) : (s.reject rc).started = s.started := rfl
@[simp] theorem State.reject_busy (s : State) (rc : ResultCode) : (s.reject rc).busy = s.busy := rfl
@[simp] theorem State.reject_preambleEn (s : State) (rc : ResultCode) : (s.reject rc).preambleEn = s.preambleEn := rfl
@[simp] theorem State.reject_dualFreq (s : State) (rc : ResultCode) : (s.reject rc).dualFreq = s.dualFreq := rfl
@[simp] theorem State.reject_txEn (s : State) (rc : ResultCode) : (s.reject rc).txEn = s.txEn := rfl
@[simp] theorem State.reject_repeatMin (s : State) (rc : ResultCode) : (s.reject rc).repeatMin = s.repeatMin := rfl
@[simp] theorem State.reject_buf (s : State) (rc : ResultCode) : (s.reject rc).buf = s.buf := rfl
@[simp] theorem State.reject_commands (s : State) (rc : ResultCode) : (s.reject rc).commands = s.commands := rfl
@[simp] theorem State.reject_issuer (s : State) (rc : ResultCode) : (s.reject rc).issuer = s.issuer := rfl
@[simp] theorem State.reject_response (s : State) (rc : ResultCode) : (s.reject rc).response = some ⟨rc, 0#32⟩ := rfl

@[simp] theorem State.enter_cfg (s : State) (k : KeyerState) (d : Nat) : (s.enter k d).cfg = s.cfg := rfl
@[simp] theorem State.enter_tick (s : State) (k : KeyerState) (d : Nat) : (s.enter k d).tick = s.tick := rfl
@[simp] theorem State.enter_endTick (s : State) (k : KeyerState) (d : Nat) : (s.enter k d).endTick = addN s.cfg.tickW s.tick (d - 1) := rfl
@[simp] theorem State.enter_unit (s : State) (k : KeyerState) (d : Nat) : (s.enter k d).unit = s.unit := rfl
@[simp] theorem State.enter_wpm (s : State) (k : KeyerState) (d : Nat) : (s.enter k d).wpm = s.wpm := rfl
@[simp] theorem State.enter_state (s : State) (k : KeyerState) (d : Nat) : (s.enter k d).state = k := rfl
@[simp] theorem State.enter_msgLen (s : State) (k : KeyerState) (d : Nat) : (s.enter k d).msgLen = s.msgLen := rfl
@[simp] theorem State.enter_cursor (s : State) (k : KeyerState) (d : Nat) : (s.enter k d).cursor = s.cursor := rfl
@[simp] theorem State.enter_charsSent (s : State) (k : KeyerState) (d : Nat) : (s.enter k d).charsSent = s.charsSent := rfl
@[simp] theorem State.enter_stream (s : State) (k : KeyerState) (d : Nat) : (s.enter k d).stream = s.stream := rfl
@[simp] theorem State.enter_started (s : State) (k : KeyerState) (d : Nat) : (s.enter k d).started = s.started := rfl
@[simp] theorem State.enter_busy (s : State) (k : KeyerState) (d : Nat) : (s.enter k d).busy = s.busy := rfl
@[simp] theorem State.enter_preambleEn (s : State) (k : KeyerState) (d : Nat) : (s.enter k d).preambleEn = s.preambleEn := rfl
@[simp] theorem State.enter_dualFreq (s : State) (k : KeyerState) (d : Nat) : (s.enter k d).dualFreq = s.dualFreq := rfl
@[simp] theorem State.enter_txEn (s : State) (k : KeyerState) (d : Nat) : (s.enter k d).txEn = s.txEn := rfl
@[simp] theorem State.enter_repeatMin (s : State) (k : KeyerState) (d : Nat) : (s.enter k d).repeatMin = s.repeatMin := rfl
@[simp] theorem State.enter_buf (s : State) (k : KeyerState) (d : Nat) : (s.enter k d).buf = s.buf := rfl
@[simp] theorem State.enter_commands (s : State) (k : KeyerState) (d : Nat) : (s.enter k d).commands = s.commands := rfl
@[simp] theorem State.enter_issuer (s : State) (k : KeyerState) (d : Nat) : (s.enter k d).issuer = s.issuer := rfl
@[simp] theorem State.enter_response (s : State) (k : KeyerState) (d : Nat) : (s.enter k d).response = s.response := rfl

@[simp] theorem State.accept_cfg (s : State) (c : Command) (rest : List Command) : (s.accept c rest).cfg = s.cfg := rfl
@[simp] theorem State.accept_tick (s : State) (c : Command) (rest : List Command) : (s.accept c rest).tick = s.tick := rfl
@[simp] theorem State.accept_endTick (s : State) (c : Command) (rest : List Command) : (s.accept c rest).endTick = s.endTick := rfl
@[simp] theorem State.accept_unit (s : State) (c : Command) (rest : List Command) : (s.accept c rest).unit = s.unit := rfl
@[simp] theorem State.accept_wpm (s : State) (c : Command) (rest : List Command) : (s.accept c rest).wpm = s.wpm := rfl
@[simp] theorem State.accept_state (s : State) (c : Command) (rest : List Command) : (s.accept c rest).state = s.state := rfl
@[simp] theorem State.accept_msgLen (s : State) (c : Command) (rest : List Command) : (s.accept c rest).msgLen = s.msgLen := rfl
@[simp] theorem State.accept_cursor (s : State) (c : Command) (rest : List Command) : (s.accept c rest).cursor = s.cursor := rfl
@[simp] theorem State.accept_charsSent (s : State) (c : Command) (rest : List Command) : (s.accept c rest).charsSent = s.charsSent := rfl
@[simp] theorem State.accept_stream (s : State) (c : Command) (rest : List Command) : (s.accept c rest).stream = s.stream := rfl
@[simp] theorem State.accept_started (s : State) (c : Command) (rest : List Command) : (s.accept c rest).started = s.started := rfl
@[simp] theorem State.accept_busy (s : State) (c : Command) (rest : List Command) : (s.accept c rest).busy = s.busy := rfl
@[simp] theorem State.accept_preambleEn (s : State) (c : Command) (rest : List Command) : (s.accept c rest).preambleEn = s.preambleEn := rfl
@[simp] theorem State.accept_dualFreq (s : State) (c : Command) (rest : List Command) : (s.accept c rest).dualFreq = s.dualFreq := rfl
@[simp] theorem State.accept_txEn (s : State) (c : Command) (rest : List Command) : (s.accept c rest).txEn = s.txEn := rfl
@[simp] theorem State.accept_repeatMin (s : State) (c : Command) (rest : List Command) : (s.accept c rest).repeatMin = s.repeatMin := rfl
@[simp] theorem State.accept_buf (s : State) (c : Command) (rest : List Command) : (s.accept c rest).buf = s.buf := rfl
@[simp] theorem State.accept_commands (s : State) (c : Command) (rest : List Command) : (s.accept c rest).commands = rest := rfl
@[simp] theorem State.accept_issuer (s : State) (c : Command) (rest : List Command) : (s.accept c rest).issuer = some c.issuer := rfl
@[simp] theorem State.accept_response (s : State) (c : Command) (rest : List Command) : (s.accept c rest).response = s.response := rfl

@[simp] theorem State.issue_cfg (s : State) (who : Issuer) (f : List Byte) : (s.issue who f).cfg = s.cfg := rfl
@[simp] theorem State.issue_tick (s : State) (who : Issuer) (f : List Byte) : (s.issue who f).tick = s.tick := rfl
@[simp] theorem State.issue_endTick (s : State) (who : Issuer) (f : List Byte) : (s.issue who f).endTick = s.endTick := rfl
@[simp] theorem State.issue_unit (s : State) (who : Issuer) (f : List Byte) : (s.issue who f).unit = s.unit := rfl
@[simp] theorem State.issue_wpm (s : State) (who : Issuer) (f : List Byte) : (s.issue who f).wpm = s.wpm := rfl
@[simp] theorem State.issue_state (s : State) (who : Issuer) (f : List Byte) : (s.issue who f).state = s.state := rfl
@[simp] theorem State.issue_msgLen (s : State) (who : Issuer) (f : List Byte) : (s.issue who f).msgLen = s.msgLen := rfl
@[simp] theorem State.issue_cursor (s : State) (who : Issuer) (f : List Byte) : (s.issue who f).cursor = s.cursor := rfl
@[simp] theorem State.issue_charsSent (s : State) (who : Issuer) (f : List Byte) : (s.issue who f).charsSent = s.charsSent := rfl
@[simp] theorem State.issue_stream (s : State) (who : Issuer) (f : List Byte) : (s.issue who f).stream = s.stream := rfl
@[simp] theorem State.issue_started (s : State) (who : Issuer) (f : List Byte) : (s.issue who f).started = s.started := rfl
@[simp] theorem State.issue_busy (s : State) (who : Issuer) (f : List Byte) : (s.issue who f).busy = s.busy := rfl
@[simp] theorem State.issue_preambleEn (s : State) (who : Issuer) (f : List Byte) : (s.issue who f).preambleEn = s.preambleEn := rfl
@[simp] theorem State.issue_dualFreq (s : State) (who : Issuer) (f : List Byte) : (s.issue who f).dualFreq = s.dualFreq := rfl
@[simp] theorem State.issue_txEn (s : State) (who : Issuer) (f : List Byte) : (s.issue who f).txEn = s.txEn := rfl
@[simp] theorem State.issue_repeatMin (s : State) (who : Issuer) (f : List Byte) : (s.issue who f).repeatMin = s.repeatMin := rfl
@[simp] theorem State.issue_buf (s : State) (who : Issuer) (f : List Byte) : (s.issue who f).buf = s.buf := rfl
@[simp] theorem State.issue_commands (s : State) (who : Issuer) (f : List Byte) : (s.issue who f).commands = s.commands ++ [⟨who, f⟩] := rfl
@[simp] theorem State.issue_issuer (s : State) (who : Issuer) (f : List Byte) : (s.issue who f).issuer = s.issuer := rfl
@[simp] theorem State.issue_response (s : State) (who : Issuer) (f : List Byte) : (s.issue who f).response = s.response := rfl

@[simp] theorem State.rewind_cfg (s : State) (len : Half) (b : Bool) : (s.rewind len b).cfg = s.cfg := rfl
@[simp] theorem State.rewind_tick (s : State) (len : Half) (b : Bool) : (s.rewind len b).tick = s.tick := rfl
@[simp] theorem State.rewind_endTick (s : State) (len : Half) (b : Bool) : (s.rewind len b).endTick = s.endTick := rfl
@[simp] theorem State.rewind_unit (s : State) (len : Half) (b : Bool) : (s.rewind len b).unit = s.unit := rfl
@[simp] theorem State.rewind_wpm (s : State) (len : Half) (b : Bool) : (s.rewind len b).wpm = s.wpm := rfl
@[simp] theorem State.rewind_state (s : State) (len : Half) (b : Bool) : (s.rewind len b).state = .idle := rfl
@[simp] theorem State.rewind_msgLen (s : State) (len : Half) (b : Bool) : (s.rewind len b).msgLen = len := rfl
@[simp] theorem State.rewind_cursor (s : State) (len : Half) (b : Bool) : (s.rewind len b).cursor = 0#16 := rfl
@[simp] theorem State.rewind_charsSent (s : State) (len : Half) (b : Bool) : (s.rewind len b).charsSent = 0#16 := rfl
@[simp] theorem State.rewind_stream (s : State) (len : Half) (b : Bool) : (s.rewind len b).stream = eoc := rfl
@[simp] theorem State.rewind_started (s : State) (len : Half) (b : Bool) : (s.rewind len b).started = false := rfl
@[simp] theorem State.rewind_busy (s : State) (len : Half) (b : Bool) : (s.rewind len b).busy = b := rfl
@[simp] theorem State.rewind_preambleEn (s : State) (len : Half) (b : Bool) : (s.rewind len b).preambleEn = s.preambleEn := rfl
@[simp] theorem State.rewind_dualFreq (s : State) (len : Half) (b : Bool) : (s.rewind len b).dualFreq = s.dualFreq := rfl
@[simp] theorem State.rewind_txEn (s : State) (len : Half) (b : Bool) : (s.rewind len b).txEn = s.txEn := rfl
@[simp] theorem State.rewind_repeatMin (s : State) (len : Half) (b : Bool) : (s.rewind len b).repeatMin = s.repeatMin := rfl
@[simp] theorem State.rewind_buf (s : State) (len : Half) (b : Bool) : (s.rewind len b).buf = s.buf := rfl
@[simp] theorem State.rewind_commands (s : State) (len : Half) (b : Bool) : (s.rewind len b).commands = s.commands := rfl
@[simp] theorem State.rewind_issuer (s : State) (len : Half) (b : Bool) : (s.rewind len b).issuer = s.issuer := rfl
@[simp] theorem State.rewind_response (s : State) (len : Half) (b : Bool) : (s.rewind len b).response = s.response := rfl

@[simp] theorem State.countTick_cfg (s : State) : (s.countTick).cfg = s.cfg := rfl
@[simp] theorem State.countTick_tick (s : State) : (s.countTick).tick = addN s.cfg.tickW s.tick 1 := rfl
@[simp] theorem State.countTick_endTick (s : State) : (s.countTick).endTick = s.endTick := rfl
@[simp] theorem State.countTick_unit (s : State) : (s.countTick).unit = s.unit := rfl
@[simp] theorem State.countTick_wpm (s : State) : (s.countTick).wpm = s.wpm := rfl
@[simp] theorem State.countTick_state (s : State) : (s.countTick).state = s.state := rfl
@[simp] theorem State.countTick_msgLen (s : State) : (s.countTick).msgLen = s.msgLen := rfl
@[simp] theorem State.countTick_cursor (s : State) : (s.countTick).cursor = s.cursor := rfl
@[simp] theorem State.countTick_charsSent (s : State) : (s.countTick).charsSent = s.charsSent := rfl
@[simp] theorem State.countTick_stream (s : State) : (s.countTick).stream = s.stream := rfl
@[simp] theorem State.countTick_started (s : State) : (s.countTick).started = s.started := rfl
@[simp] theorem State.countTick_busy (s : State) : (s.countTick).busy = s.busy := rfl
@[simp] theorem State.countTick_preambleEn (s : State) : (s.countTick).preambleEn = s.preambleEn := rfl
@[simp] theorem State.countTick_dualFreq (s : State) : (s.countTick).dualFreq = s.dualFreq := rfl
@[simp] theorem State.countTick_txEn (s : State) : (s.countTick).txEn = s.txEn := rfl
@[simp] theorem State.countTick_repeatMin (s : State) : (s.countTick).repeatMin = s.repeatMin := rfl
@[simp] theorem State.countTick_buf (s : State) : (s.countTick).buf = s.buf := rfl
@[simp] theorem State.countTick_commands (s : State) : (s.countTick).commands = s.commands := rfl
@[simp] theorem State.countTick_issuer (s : State) : (s.countTick).issuer = s.issuer := rfl
@[simp] theorem State.countTick_response (s : State) : (s.countTick).response = s.response := rfl

end Sys2Proof.Machine
end

