-- ==== Sys2Proof/Laws/Sequencer.lean ====
section
/-! SUPPORT. For each operation of the sequencer and each operand decoder, everything it can do, said once. -/
namespace Sys2Proof.Machine

/-- A stream the Code Table answers is a ROM byte of the supported range, neither sentinel (40_lookup.md R90). -/
theorem lookupCode_eq_stream {rom : Vector Byte 64} {c e : Byte} (h : lookupCode rom c = .stream e) :
    ∃ hc : 32 ≤ c.toNat ∧ c.toNat ≤ 95, rom[c.toNat - 32]'(by omega) = e ∧ e ≠ wordSpaceByte ∧ e ≠ eoc := by
  unfold lookupCode at h
  split_ifs at h with hc
  dsimp only at h
  split_ifs at h with h1 h2
  cases h
  exact ⟨hc, rfl, h1, h2⟩

/-- `lookup` answers NotEncodable outside the supported range (30_encoding.md R82). -/
theorem lookupCode_of_out_of_range (rom : Vector Byte 64) {c : Byte} (h : ¬ (32 ≤ c.toNat ∧ c.toNat ≤ 95)) :
    lookupCode rom c = .notEncodable := by
  simp [lookupCode, h]

/-- A flag operand is legal exactly when it is 0 or 1, and stands for whether it is 1 (30_encoding.md R75). -/
theorem flagOperand_eq (b : Byte) : flagOperand b = if b.toNat ≤ 1 then some (decide (b = 1#8)) else none := by
  revert b
  decide

/-- `end_of_message` enters one of the two delays (43_tick.md R131). -/
theorem State.endOfMessage_cases (s : State) :
    (s.repeatMin = 0#8 ∧ s.endOfMessage = s.enter .endOfMessageDelay (7 * s.unit.toNat)) ∨
      (s.repeatMin ≠ 0#8 ∧ s.endOfMessage = s.enter .messageRepeatDelay s.repeatDuration) := by
  by_cases h : s.repeatMin = 0#8 <;> simp [State.endOfMessage, h]

/-- `element` enters Dah or Dit by the leading element and consumes it (43_tick.md R125). -/
theorem State.element_cases (s : State) :
    (leadingElement s.stream = .dah ∧
        s.element = { s.enter .dah (3 * s.unit.toNat) with stream := consumeElement s.stream }) ∨
      (leadingElement s.stream = .dit ∧
        s.element = { s.enter .dit s.unit.toNat with stream := consumeElement s.stream }) := by
  cases h : leadingElement s.stream <;> simp [State.element, h]

/-- `fetch`: the end of the buffer, a space, a skipped character, or a character whose first element is keyed
(43_tick.md R124). -/
theorem State.fetch_cases (s : State) :
    (s.cursor = s.msgLen ∧ s.fetch = s.endOfMessage) ∨
      (s.cursor ≠ s.msgLen ∧ lookupCode s.rom (s.bufByte s.cursor.toNat) = .wordSpace ∧
        s.fetch = { s with cursor := s.cursor + 1#16, stream := eoc }.enter .wordGap (7 * s.unit.toNat)) ∨
      (s.cursor ≠ s.msgLen ∧ lookupCode s.rom (s.bufByte s.cursor.toNat) = .notEncodable ∧
        s.fetch = { s with cursor := s.cursor + 1#16, stream := eoc, state := .idle }) ∨
      (s.cursor ≠ s.msgLen ∧ ∃ e, lookupCode s.rom (s.bufByte s.cursor.toNat) = .stream e ∧
        s.fetch = { s with stream := e }.element) := by
  by_cases h : s.cursor = s.msgLen
  · exact .inl ⟨h, by simp [State.fetch, h]⟩
  · cases hl : lookupCode s.rom (s.bufByte s.cursor.toNat) <;> simp [State.fetch, h, hl]

/-- `decide`: the next element, the next character, the Preamble, or the first character (43_tick.md R123). -/
theorem State.decideNext_cases (s : State) :
    (s.started = true ∧ s.stream = eoc ∧ s.decideNext = s.fetch) ∨
      (s.started = true ∧ s.stream ≠ eoc ∧ s.decideNext = s.element) ∨
      (s.started = false ∧ s.preambleEn = true ∧
        s.decideNext = { s with started := true }.enter .preamble (7 * s.unit.toNat)) ∨
      (s.started = false ∧ s.preambleEn = false ∧ s.decideNext = { s with started := true }.fetch) := by
  cases h1 : s.started
  · cases h2 : s.preambleEn <;> simp [State.decideNext, h1, h2]
  · by_cases h3 : s.stream = eoc <;> simp [State.decideNext, h1, h3]

/-- `continue`: decide, or hold in Idle while the transmitter is disabled (43_tick.md R122). -/
theorem State.continueNext_cases (s : State) :
    (s.txEn = true ∧ s.continueNext = s.decideNext) ∨
      (s.txEn = false ∧ s.continueNext = { s with state := .idle }) := by
  cases h : s.txEn <;> simp [State.continueNext, h]

/-- After a character: the end of the message, a word gap or a character gap (43_tick.md R127). -/
theorem State.afterCharacter_cases (s : State) :
    (s.cursor = s.msgLen ∧ s.afterCharacter = s.endOfMessage) ∨
      (s.cursor ≠ s.msgLen ∧ lookupCode s.rom (s.bufByte s.cursor.toNat) = .wordSpace ∧
        s.afterCharacter = { s with cursor := s.cursor + 1#16 }.enter .wordGap (7 * s.unit.toNat)) ∨
      (s.cursor ≠ s.msgLen ∧ lookupCode s.rom (s.bufByte s.cursor.toNat) ≠ .wordSpace ∧
        s.afterCharacter = s.enter .charGap (3 * s.unit.toNat)) := by
  by_cases h : s.cursor = s.msgLen
  · exact .inl ⟨h, by simp [State.afterCharacter, h]⟩
  · cases hl : lookupCode s.rom (s.bufByte s.cursor.toNat) <;> simp [State.afterCharacter, h, hl]

/-- Exit of Dit or Dah: the element's trailing gap, or what follows the character (43_tick.md R126, R127). -/
theorem State.exitElement_cases (s : State) (gap : KeyerState) :
    (s.stream ≠ eoc ∧ s.exitElement gap = s.enter gap s.unit.toNat) ∨
      (s.stream = eoc ∧ s.exitElement gap =
        { s with charsSent := s.charsSent + 1#16, cursor := s.cursor + 1#16 }.afterCharacter) := by
  by_cases h : s.stream = eoc <;> simp [State.exitElement, h]

/-- One evaluation: hold, a decision from Idle, or the exit of an expired state (43_tick.md R115, R117). -/
theorem State.evaluate_cases (s : State) :
    (s.state = .idle ∧ (s.busy = true ∧ s.txEn = true) ∧ s.evaluate = s.decideNext) ∨
      (s.state = .idle ∧ ¬ (s.busy = true ∧ s.txEn = true) ∧ s.evaluate = s) ∨
      (s.state ≠ .idle ∧ s.expired = true ∧ s.evaluate = s.exitTimed) ∨
      (s.state ≠ .idle ∧ s.expired = false ∧ s.evaluate = s) := by
  by_cases h1 : s.state = .idle
  · by_cases h2 : s.busy = true ∧ s.txEn = true
    · exact .inl ⟨h1, h2, by simp [State.evaluate, h1, h2]⟩
    · exact .inr (.inl ⟨h1, h2, by simp [State.evaluate, h1, h2]⟩)
  · cases h3 : s.expired <;> simp [State.evaluate, h1, h3]

end Sys2Proof.Machine
end

