-- ==== Sys2Proof/Laws/Frame.lean ====
section
/-! SUPPORT. What no operation of the sequencer writes, proved once per operation up to a whole evaluation. -/
namespace Sys2Proof.Machine

/-- `t` has the fields of `s` that the state machine only reads, or does not read at all. -/
structure SequencerFrame (s t : State) : Prop where
  cfg : t.cfg = s.cfg
  tick : t.tick = s.tick
  unit : t.unit = s.unit
  wpm : t.wpm = s.wpm
  dualFreq : t.dualFreq = s.dualFreq
  txEn : t.txEn = s.txEn
  repeatMin : t.repeatMin = s.repeatMin
  buf : t.buf = s.buf
  commands : t.commands = s.commands
  issuer : t.issuer = s.issuer

theorem SequencerFrame.refl (s : State) : SequencerFrame s s := by constructor <;> rfl

theorem SequencerFrame.trans {a b c : State} (h : SequencerFrame a b) (k : SequencerFrame b c) : SequencerFrame a c := by
  cases h
  cases k
  constructor <;> simp_all

theorem State.endOfMessage_frame (s : State) : SequencerFrame s s.endOfMessage := by
  rcases s.endOfMessage_cases with ⟨_, h⟩ | ⟨_, h⟩ <;> rw [h] <;> constructor <;> rfl

theorem State.element_frame (s : State) : SequencerFrame s s.element := by
  rcases s.element_cases with ⟨_, h⟩ | ⟨_, h⟩ <;> rw [h] <;> constructor <;> rfl

theorem State.fetch_frame (s : State) : SequencerFrame s s.fetch := by
  rcases s.fetch_cases with ⟨_, h⟩ | ⟨_, _, h⟩ | ⟨_, _, h⟩ | ⟨_, e, _, h⟩ <;> rw [h]
  · exact s.endOfMessage_frame
  · constructor <;> rfl
  · constructor <;> rfl
  · exact SequencerFrame.trans (b := { s with stream := e }) (by constructor <;> rfl) (State.element_frame _)

theorem State.decideNext_frame (s : State) : SequencerFrame s s.decideNext := by
  rcases s.decideNext_cases with ⟨_, _, h⟩ | ⟨_, _, h⟩ | ⟨_, _, h⟩ | ⟨_, _, h⟩ <;> rw [h]
  · exact s.fetch_frame
  · exact s.element_frame
  · constructor <;> rfl
  · exact SequencerFrame.trans (b := { s with started := true }) (by constructor <;> rfl) (State.fetch_frame _)

theorem State.continueNext_frame (s : State) : SequencerFrame s s.continueNext := by
  rcases s.continueNext_cases with ⟨_, h⟩ | ⟨_, h⟩ <;> rw [h]
  · exact s.decideNext_frame
  · constructor <;> rfl

theorem State.afterCharacter_frame (s : State) : SequencerFrame s s.afterCharacter := by
  rcases s.afterCharacter_cases with ⟨_, h⟩ | ⟨_, _, h⟩ | ⟨_, _, h⟩ <;> rw [h]
  · exact s.endOfMessage_frame
  · constructor <;> rfl
  · constructor <;> rfl

theorem State.exitElement_frame (s : State) (gap : KeyerState) : SequencerFrame s (s.exitElement gap) := by
  rcases s.exitElement_cases gap with ⟨_, h⟩ | ⟨_, h⟩ <;> rw [h]
  · constructor <;> rfl
  · exact SequencerFrame.trans (b := { s with charsSent := s.charsSent + 1#16, cursor := s.cursor + 1#16 })
      (by constructor <;> rfl) (State.afterCharacter_frame _)

theorem State.exitTimed_frame (s : State) : SequencerFrame s s.exitTimed := by
  unfold State.exitTimed
  split
  · exact SequencerFrame.refl s
  · exact SequencerFrame.trans (b := { s with preambleEn := false }) (by constructor <;> rfl) (State.continueNext_frame _)
  · exact s.exitElement_frame _
  · exact s.exitElement_frame _
  · exact s.continueNext_frame
  · exact s.continueNext_frame
  · exact s.continueNext_frame
  · exact s.continueNext_frame
  · exact SequencerFrame.trans (b := { s with cursor := 0#16, charsSent := 0#16, stream := eoc, started := false })
      (by constructor <;> rfl) (State.continueNext_frame _)
  · constructor <;> rfl

/-- A whole evaluation writes none of those fields (43_tick.md R115: the flags and registers a TICK writes). -/
theorem State.evaluate_frame (s : State) : SequencerFrame s s.evaluate := by
  rcases s.evaluate_cases with ⟨_, _, h⟩ | ⟨_, _, h⟩ | ⟨_, _, h⟩ | ⟨_, _, h⟩ <;> rw [h]
  · exact s.decideNext_frame
  · exact SequencerFrame.refl s
  · exact s.exitTimed_frame
  · exact SequencerFrame.refl s

end Sys2Proof.Machine
end

