-- ==== Sys2Proof/Laws/PerInstr.lean ====
section
/-! SUPPORT. One family of facts stated per command: a command's frame has the length its first bytes call for
(30_encoding.md R72). -/
namespace Sys2Proof.Laws

def FrameLength.Statement (i : Instr) : Prop :=
  i.wellFormed = true → expectedLength (encode i) = some (encode i).length

theorem FrameLength.tick : FrameLength.Statement .tick := fun _ => rfl

theorem FrameLength.configure (w : Word) : FrameLength.Statement (.configure w) := fun _ => rfl

theorem FrameLength.send (text : List Byte) : FrameLength.Statement (.send text) := by
  intro h
  have hn : text.length ≤ 65535 := by simpa [Instr.wellFormed] using h
  have e : expectedLength (encode (.send text)) =
      some (3 + lengthField (BitVec.ofNat 8 text.length) (BitVec.ofNat 8 (text.length / 256))) := rfl
  rw [e, lengthField_ofNat hn]
  simp only [encode, Instr.operandBytes, List.length_cons]
  congr 1
  omega

theorem FrameLength.reset : FrameLength.Statement .reset := fun _ => rfl

theorem FrameLength.setPreamble (b : Byte) : FrameLength.Statement (.setPreamble b) := fun _ => rfl

theorem FrameLength.setDualfreq (b : Byte) : FrameLength.Statement (.setDualfreq b) := fun _ => rfl

theorem FrameLength.setTxen (b : Byte) : FrameLength.Statement (.setTxen b) := fun _ => rfl

theorem FrameLength.setRepeat (m : Byte) : FrameLength.Statement (.setRepeat m) := fun _ => rfl

theorem FrameLength.read (r : Byte) : FrameLength.Statement (.read r) := fun _ => rfl

theorem FrameLength.lookup (c : Byte) : FrameLength.Statement (.lookup c) := fun _ => rfl

end Sys2Proof.Laws
end

