-- ==== Sys2Proof/Laws/Timing.lean ====
section
/-! SUPPORT. Deadlines, and runs of TICKs. -/
namespace Sys2Proof.Machine

theorem two_pow_eq {n : Nat} (h : 1 ≤ n) : 2 ^ n = 2 * 2 ^ (n - 1) := by
  obtain ⟨m, rfl⟩ : ∃ m, n = m + 1 := ⟨n - 1, by omega⟩
  rw [Nat.add_sub_cancel, Nat.pow_succ, Nat.mul_comm]

/-- The distance from the current tick to a deadline set `k` ticks ahead (43_tick.md R118). -/
theorem subN_addN_self {n : Nat} (hn : n ≤ 64) {x : Counter} (hx : x.toNat < 2 ^ n) {k : Nat} (hk : k < 2 ^ n) :
    subN n (addN n x k) x = k := by
  have h := subN_addN_of_le hn x (Nat.zero_le k)
  rwa [addN_zero hn hx, Nat.sub_zero, Nat.mod_eq_of_lt hk] at h

/-- One more tick: a deadline at the current tick is passed by 1, any other comes nearer by 1. -/
theorem subN_next {n : Nat} (h2 : 2 ≤ n) (hn : n ≤ 64) {x e : Counter} (hx : x.toNat < 2 ^ n) (he : e.toNat < 2 ^ n) :
    (subN n e x = 0 → subN n (addN n x 1) e = 1) ∧
      (subN n e x ≠ 0 → subN n e (addN n x 1) = subN n e x - 1) := by
  have h4 : 4 ≤ 2 ^ n := le_trans (by decide : 4 ≤ 2 ^ 2) (Nat.pow_le_pow_right (by decide) h2)
  simp only [subN, addN_toNat hn, Nat.mod_mod]
  rw [Nat.mod_eq_of_lt hx, Nat.mod_eq_of_lt he]
  generalize 2 ^ n = N at *
  generalize x.toNat = a at *
  generalize e.toNat = b at *
  have m : ∀ z, z < 2 * N → z % N = if z < N then z else z - N := by
    intro z hz
    split
    · exact Nat.mod_eq_of_lt ‹_›
    · rw [Nat.mod_eq_sub_mod (by omega), Nat.mod_eq_of_lt (by omega)]
  constructor <;> rw [m (b + (N - a)) (by omega), m (a + 1) (by omega)] <;> intro h <;> split at h <;> split <;>
    rw [m _ (by omega)] <;> split <;> omega

/-- Within the `d` ticks of a state entered at tick `x`, it is expired exactly at the last, the `d`-th (43_tick.md R119). -/
theorem State.expired_of_entered {s : State} {x : Counter} {d k : Nat} (ht : s.tick = addN s.cfg.tickW x k)
    (he : s.endTick = addN s.cfg.tickW x (d - 1)) (hw : 1 ≤ s.cfg.tickW) (hn : s.cfg.tickW ≤ 64) (h1 : 1 ≤ d)
    (hd : d < 2 ^ (s.cfg.tickW - 1)) (hk : k ≤ d) : s.expired = decide (k = d) := by
  have h2 := two_pow_eq hw
  rw [Bool.eq_iff_iff, State.expired_iff, ht, he, decide_eq_true_eq]
  by_cases hk' : k < d - 1
  · rw [subN_addN_of_lt hn _ hk' (by omega)]
    omega
  · rw [subN_addN_of_le hn _ (by omega), Nat.mod_eq_of_lt (by omega)]
    omega

/-- What a TICK answers. -/
theorem exec_tick (s : State) : exec .tick s = .next (s.countTick.evaluate.respond .ok 0#32) := rfl

theorem runTicks_succ (k : Nat) (s : State) :
    runTicks (k + 1) s = runTicks k (s.countTick.evaluate.respond .ok 0#32) := rfl

/-- Runs of TICKs compose. -/
theorem runTicks_add {j : Nat} (k : Nat) {s t : State} (h : runTicks j s = .next t) :
    runTicks (j + k) s = runTicks k t := by
  induction j generalizing s with
  | zero =>
    cases h
    rw [Nat.zero_add]
  | succ j ih =>
    rw [runTicks_succ] at h
    rw [show j + 1 + k = (j + k) + 1 by omega, runTicks_succ]
    exact ih h

end Sys2Proof.Machine
end

