-- ==== Sys2Proof/Machine/Assembler.lean ====
section
/-! DEFINITION. The assembler of 30_encoding.md R76 and its two pseudo-instructions (R77): one source line to the
commands it stands for, and to their frames. It is no part of the block: a program is the frames an issuer sends. The
points R76 leaves open are DESIGN CHOICE (log 12). -/
namespace Sys2Proof.Machine

/-- A parser takes characters from the front of a line; none is a line it does not read. -/
abbrev Parser (α : Type) := List Char → Option (α × List Char)

def isBlank (c : Char) : Bool := c.toNat == 32 || c.toNat == 9 || c.toNat == 13

/-- `;` begins a comment (R76). -/
def isComment (c : Char) : Bool := c.toNat == 59

def skipBlanks (cs : List Char) : List Char := cs.dropWhile isBlank

/-- Nothing but blanks and a comment is left. -/
def atEnd (cs : List Char) : Bool :=
  match skipBlanks cs with
  | [] => true
  | c :: _ => isComment c

/-- The value of a digit of base `base`, 10 or 16. -/
def digitValue (base : Nat) (c : Char) : Option Nat :=
  let n := c.toNat
  let v :=
    if 48 ≤ n ∧ n ≤ 57 then some (n - 48)
    else if 65 ≤ n ∧ n ≤ 70 then some (n - 55)
    else if 97 ≤ n ∧ n ≤ 102 then some (n - 87)
    else none
  v.filter (· < base)

/-- The digits at the front of a line, their values in order, and what follows them. -/
def digits (base : Nat) : List Char → List Nat × List Char
  | [] => ([], [])
  | c :: cs =>
    match digitValue base c with
    | some v => let (vs, rest) := digits base cs; (v :: vs, rest)
    | none => ([], c :: cs)

def ofDigits (base : Nat) (vs : List Nat) : Nat := vs.foldl (fun a v => a * base + v) 0

/-- A decimal number. -/
def parseNat : Parser Nat := fun cs =>
  match digits 10 cs with
  | ([], _) => none
  | (vs, rest) => some (ofDigits 10 vs, rest)

/-- A decimal number 0 to 255 as an operand byte. Values a command turns away are assembled too: the block answers them. -/
def parseByte : Parser Byte := fun cs =>
  match parseNat cs with
  | some (n, rest) => if n ≤ 255 then some (BitVec.ofNat 8 n, rest) else none
  | none => none

/-- `num / den` rounded to the nearest natural, ties to even. -/
def roundHalfEven (num den : Nat) : Nat :=
  let q := num / den
  let r := num % den
  if 2 * r > den ∨ (2 * r = den ∧ q % 2 = 1) then q + 1 else q

/-- The binary32 nearest to `num / den` > 0, ties to even (R76): sign bit 0. The significand is rounded at the exponent
x ≥ −149 that gives it 24 bits; a carry out of it falls into the exponent field; past the largest finite value, Inf. -/
def nearestBinary32 (num den : Nat) : Nat :=
  let up (a : Int) : Nat := a.toNat
  let l : Int := (num.log2 : Int) - den.log2
  let e : Int := if num * 2 ^ up (-l) ≥ den * 2 ^ up l then l else l - 1
  let x : Int := max (e - 23) (-149)
  let m := roundHalfEven (num * 2 ^ up (-x)) (den * 2 ^ up x)
  let bits := up (x + 149) * 2 ^ 23 + m
  min bits 0x7F800000

/-- The speed operand's decimal literal: an optional minus sign, digits, optionally a point and digits. -/
def parseDecimal : Parser Word := fun cs =>
  let (neg, cs) := match cs with
    | c :: t => if c.toNat = 45 then (true, t) else (false, c :: t)
    | [] => (false, [])
  match digits 10 cs with
  | ([], _) => none
  | (ip, rest) =>
    let read (fp : List Nat) (rest : List Char) : Option (Word × List Char) :=
      let num := ofDigits 10 (ip ++ fp)
      let bits := if num = 0 then 0 else nearestBinary32 num (10 ^ fp.length)
      some (BitVec.ofNat 32 (bits + if neg then 2 ^ 31 else 0), rest)
    match rest with
    | c :: t =>
      if c.toNat = 46 then
        match digits 10 t with
        | ([], _) => none
        | (fp, rest) => read fp rest
      else read [] (c :: t)
    | [] => read [] []

/-- A hexadecimal bit pattern of one to eight digits after `0x`. -/
def parsePattern : Parser Word := fun cs =>
  match cs with
  | z :: x :: t =>
    if z.toNat = 48 ∧ x.toNat = 120 then
      match digits 16 t with
      | (vs, rest) => if 1 ≤ vs.length ∧ vs.length ≤ 8 then some (BitVec.ofNat 32 (ofDigits 16 vs), rest) else none
    else none
  | _ => none

/-- The operand of CONFIGURE: a bit pattern or a decimal literal (R76). -/
def parseSpeed : Parser Word := fun cs =>
  match parsePattern cs with
  | some r => some r
  | none => parseDecimal cs

def isPrintable (c : Char) : Bool := 32 ≤ c.toNat && c.toNat ≤ 126

/-- The text of SEND after its opening quote, up to its closing one: printable ASCII and the escapes of R76. -/
def parseText : Parser (List Byte)
  | [] => none
  | c :: cs =>
    let put (b : Nat) (r : Option (List Byte × List Char)) : Option (List Byte × List Char) :=
      r.map (fun (bs, rest) => (BitVec.ofNat 8 b :: bs, rest))
    if c.toNat = 34 then some ([], cs)
    else if c.toNat = 92 then
      match cs with
      | d :: ds =>
        if d.toNat = 34 ∨ d.toNat = 92 then put d.toNat (parseText ds)
        else if d.toNat = 120 then
          match ds with
          | h :: l :: rest =>
            match digitValue 16 h, digitValue 16 l with
            | some a, some b => put (16 * a + b) (parseText rest)
            | _, _ => none
          | _ => none
        else none
      | [] => none
    else if isPrintable c then put c.toNat (parseText cs)
    else none

def parseString : Parser (List Byte)
  | c :: cs => if c.toNat = 34 then parseText cs else none
  | [] => none

/-- The register names of R76, which are those of 44_fields.md R163. -/
def registerNames : List (String × Byte) :=
  [("STATUS", 0#8), ("TICK", 1#8), ("CHARS_SENT", 2#8), ("UNIT", 3#8), ("WPM", 4#8), ("REPEAT", 5#8), ("CURSOR", 6#8),
   ("MSG_LEN", 7#8), ("END_TICK", 8#8), ("STREAM", 9#8)]

/-- The word at the front of a line. -/
def takeWord (cs : List Char) : List Char × List Char := cs.span (fun c => !(isBlank c || isComment c))

/-- The operand of READ: a number or a register name (R76). -/
def parseRegister : Parser Byte := fun cs =>
  match parseByte cs with
  | some r => some r
  | none =>
    let (w, rest) := takeWord cs
    (registerNames.find? (fun p => p.1.toList == w)).map (fun p => (p.2, rest))

/-- The operand of LOOKUP: a number or a character literal (R76). -/
def parseCharacter : Parser Byte := fun cs =>
  match cs with
  | q :: c :: q' :: rest =>
    if q.toNat = 39 ∧ q'.toNat = 39 ∧ isPrintable c then some (BitVec.ofNat 8 c.toNat, rest) else parseByte cs
  | _ => parseByte cs

/-- What one source line stands for. -/
inductive SourceLine where
  | empty
  | command (i : Instr)
  /-- The pseudo-instruction TICKS k (R77). -/
  | ticks (k : Nat)
deriving DecidableEq, Repr

/-- The commands of a line: `TICKS k` is k TICKs, and `TICKS 0` nothing (R77). -/
def SourceLine.commands : SourceLine → List Instr
  | .empty => []
  | .command i => [i]
  | .ticks k => List.replicate k .tick

/-- One operand, then the end of the line. -/
def operand {α : Type} (p : Parser α) (mk : α → SourceLine) (cs : List Char) : Option SourceLine :=
  match p (skipBlanks cs) with
  | some (a, rest) => if atEnd rest then some (mk a) else none
  | none => none

/-- A mnemonic and its operand (R76); SETSPEED is a synonym of CONFIGURE (R77). -/
def parseMnemonic (w rest : List Char) : Option SourceLine :=
  if w = "TICK".toList then (if atEnd rest then some (.command .tick) else none)
  else if w = "RESET".toList then (if atEnd rest then some (.command .reset) else none)
  else if w = "CONFIGURE".toList ∨ w = "SETSPEED".toList then operand parseSpeed (fun x => .command (.configure x)) rest
  else if w = "SEND".toList then operand parseString (fun t => .command (.send t)) rest
  else if w = "SET_PREAMBLE".toList then operand parseByte (fun b => .command (.setPreamble b)) rest
  else if w = "SET_DUALFREQ".toList then operand parseByte (fun b => .command (.setDualfreq b)) rest
  else if w = "SET_TXEN".toList then operand parseByte (fun b => .command (.setTxen b)) rest
  else if w = "SET_REPEAT".toList then operand parseByte (fun b => .command (.setRepeat b)) rest
  else if w = "READ".toList then operand parseRegister (fun b => .command (.read b)) rest
  else if w = "LOOKUP".toList then operand parseCharacter (fun b => .command (.lookup b)) rest
  else if w = "TICKS".toList then operand parseNat (fun k => .ticks k) rest
  else none

/-- One source line (R76); none is a line the assembler refuses, a SEND too long for its length field among them. -/
def assembleLine (line : List Char) : Option SourceLine :=
  if atEnd line then some .empty
  else
    let (w, rest) := takeWord (skipBlanks line)
    match parseMnemonic w rest with
    | some (.command i) => if i.wellFormed then some (.command i) else none
    | r => r

/-- A program: its lines' frames in order (R65, R77). -/
def assemble : List (List Char) → Option (List (List Byte))
  | [] => some []
  | l :: ls =>
    match assembleLine l, assemble ls with
    | some x, some fs => some (x.commands.map encode ++ fs)
    | _, _ => none

end Sys2Proof.Machine
end

