-- ==== Sys2Proof/Tests/Slice0.lean ====
section
/-! SUPPORT. Tests of the model, their expected results from the spec's own examples (95_test_vectors.md and the rules
named), and for every statement with hypotheses a witness that meets them. -/
namespace Sys2Proof.Tests

open Sys2Proof.Machine

/-! ### Helpers -/

/-- One field of the state a command leaves. -/
def field {α : Type} (r : Result) (f : State → α) : Option α :=
  match r with
  | .next t => some (f t)
  | .fault _ => none
  | .refused _ => none

/-- The reset state with one frame waiting. -/
def waiting (frame : List Byte) : State := { State.reset with commands := [⟨.host, frame⟩] }

/-- Power-on at 1200 WPM (UNIT = 1) with the text `A #B`, `A` in hand, in state `k` with `END_TICK` = `e` at tick `t`. -/
def onAir (k : KeyerState) (t e : Counter) (stream : Byte) : State :=
  { State.reset with
    unit := 1#32, wpm := 0x44960000#32, state := k, tick := t, endTick := e, stream := stream, started := true,
    busy := true, msgLen := 4#16, buf := [(0, 0x41#8), (1, 0x20#8), (2, 0x23#8), (3, 0x42#8)] }

/-- The same message, held in Idle before its first decision. -/
def queued : State := { onAir .idle 5#64 0#64 eoc with started := false }

/-- The elements written as in 30_encoding.md R84. -/
def elements (m : String) : List Element := m.toList.map (fun c => if c.toNat = 45 then .dah else .dit)

/-! ### WellFormed: the one check refuses what it is for -/

theorem send_wellFormed (n : Nat) (b : Byte) : (Instr.send (List.replicate n b)).wellFormed = decide (n ≤ 65535) := by
  simp only [Instr.wellFormed, List.length_replicate]

theorem test_too_long_text_has_no_frame : (Instr.send (List.replicate 65536 0x41#8)).wellFormed = false :=
  (send_wellFormed 65536 0x41#8).trans (by decide)

theorem test_longest_text_has_a_frame : (Instr.send (List.replicate 65535 0x41#8)).wellFormed = true :=
  (send_wellFormed 65535 0x41#8).trans (by decide)

/-! ### Frames: each constructor's, written out from its format -/

theorem test_decode_tick : decode [0b00000001#8] = .ok .tick := rfl
theorem test_decode_configure :  -- 41_configure.md R95's example: 20.0
    decode [0b00000010#8, 0x00#8, 0x00#8, 0xA0#8, 0x41#8] = .ok (.configure 0x41A00000#32) := rfl
theorem test_decode_configure_order :
    decode [0b00000010#8, 0x96#8, 0x43#8, 0x8B#8, 0x3C#8] = .ok (.configure 0x3C8B4396#32) := rfl
theorem test_decode_send : decode [0b00000011#8, 0x02#8, 0x00#8, 0x45#8, 0x54#8] = .ok (.send [0x45#8, 0x54#8]) := rfl
theorem test_decode_send_high_length_byte :
    decode (0b00000011#8 :: 0x00#8 :: 0x01#8 :: List.replicate 256 0x41#8) = .ok (.send (List.replicate 256 0x41#8)) := by
  decide +kernel
theorem test_decode_reset : decode [0b00000100#8] = .ok .reset := rfl
theorem test_decode_setPreamble : decode [0b00000101#8, 0x01#8] = .ok (.setPreamble 0x01#8) := rfl
theorem test_decode_setDualfreq : decode [0b00000110#8, 0x01#8] = .ok (.setDualfreq 0x01#8) := rfl
theorem test_decode_setTxen : decode [0b00000111#8, 0xFF#8] = .ok (.setTxen 0xFF#8) := rfl
theorem test_decode_setRepeat : decode [0b00001000#8, 0x1E#8] = .ok (.setRepeat 0x1E#8) := rfl
theorem test_decode_read : decode [0b00001001#8, 0x0A#8] = .ok (.read 0x0A#8) := rfl
theorem test_decode_lookup : decode [0b00001010#8, 0x41#8] = .ok (.lookup 0x41#8) := rfl

/-- 95_test_vectors.md 2.6 and 2.3: frames that are no command. -/
theorem test_rejected_frames :
    [[], [0x01, 0x00], [0x02, 0x00, 0x00], [0x09], [0x03], [0x03, 0x01], [0x03, 0x02, 0x00, 0x41], [0x04, 0x04],
      [0x0B, 0x00], [0x00, 0x00]].map decode = List.replicate 10 (.error .malformed) ∧
    [[0x00], [0x0B], [0x80], [0xFF]].map decode =
      [.error (.reservedOpcode 0x00#8), .error (.reservedOpcode 0x0B#8), .error (.reservedOpcode 0x80#8),
        .error (.reservedOpcode 0xFF#8)] := by decide

theorem test_encode_send : encode (.send [0x45#8, 0x54#8]) = [0x03#8, 0x02#8, 0x00#8, 0x45#8, 0x54#8] := rfl

/-- Bytes numbered from bit 0 up; operand bits the table does not give are 0 (spec/opcode_table.json). -/
theorem test_table_words :
    decodeTableWord 8 0x01 = some .tick ∧ decodeTableWord 8 0x02 = some (.configure 0#32) ∧
    decodeTableWord 40 0x41A0000002 = some (.configure 0x41A00000#32) ∧
    decodeTableWord 24 0x000203 = some (.send [0#8, 0#8]) ∧ decodeTableWord 8 0x03 = some (.send []) ∧
    decodeTableWord 16 0x1E08 = some (.setRepeat 0x1E#8) ∧ decodeTableWord 8 0x0B = none := by decide

/-- 95_test_vectors.md 2.5: READ 3 as the first instruction after reset. -/
theorem test_fetched_word_runs :
    field (step (State.reset.withFetchWord 16 0x0309)) State.response = some (some ⟨.ok, 60#32⟩) := by decide

/-! ### One step of each command -/

/-- 95_test_vectors.md T22: TICK wraps to 0 at TICK_W = 32, and the Dit that ended there gives way to its gap. -/
theorem test_tick_wraps :
    field (exec .tick (onAir .dit 0xFFFFFFFF#64 0xFFFFFFFF#64 0xBF#8)) (fun t => (t.tick, t.state, t.endTick)) =
      some (0#64, .ditDelay, 0#64) := by decide

/-- 95_test_vectors.md 2.5 (READ 9 and READ 8 after one TICK of `A`). -/
theorem test_tick_keys_first_element :
    field (exec .tick { queued with tick := 0#64 }) (fun t => (t.streamWord, t.endTick, t.statusWord)) =
      some (0x000001BF#32, 1#64, 0x0000024F#32) := by decide

theorem test_configure_tenth :  -- 41_configure.md R100: 0.1 as binary32
    field (exec (.configure 0x3DCCCCCD#32) State.reset) (fun t => (t.unit, t.wpm)) = some (11999#32, 0x3DCCCCCD#32) := by
  decide +kernel

theorem test_configure_minus_zero :
    field (exec (.configure 0x80000000#32) State.reset) (fun t => (t.unit, t.response)) =
      some (60#32, some ⟨.errInvalidSpeed, 0#32⟩) := by decide +kernel

theorem test_send_stops_at_nul :  -- 95_test_vectors.md 2.3
    field (exec (.send [0x48#8, 0x49#8, 0x00#8, 0x54#8]) State.reset) (fun t => (t.msgLen, t.buf, t.statusWord)) =
      some (2#16, [(0, 0x48#8), (1, 0x49#8)], 0x00000041#32) := by decide

theorem test_send_too_long :  -- 95_test_vectors.md E6
    field (exec (.send (List.replicate 256 0x41#8)) (onAir .ditDelay 4#64 4#64 0x3F#8)) (fun t => (t.response, t.msgLen)) =
      some (some ⟨.errTooLong, 0#32⟩, 4#16) := by decide +kernel

theorem test_reset_in_flight :  -- 95_test_vectors.md E9
    field (exec .reset (onAir .dah 2#64 3#64 eoc)) (fun t => (t.statusWord, t.tick, t.endTick, t.msgLen, t.streamWord)) =
      some (0x00000040#32, 2#64, 3#64, 0#16, 0x7F#32) := by decide

theorem test_setPreamble : field (exec (.setPreamble 1#8) State.reset) State.statusWord = some 0x00000050#32 := by decide

theorem test_setDualfreq_on_air :  -- 95_test_vectors.md F3
    field (exec (.setDualfreq 1#8) (onAir .dit 1#64 1#64 0xBF#8)) State.statusWord = some 0x0000026F#32 := by decide

theorem test_setTxen_on_air :  -- 95_test_vectors.md M1
    field (exec (.setTxen 0#8) (onAir .dah 2#64 6#64 eoc)) State.statusWord = some 0x00000301#32 := by decide

theorem test_setTxen_bad_operand :
    field (exec (.setTxen 0xFF#8) State.reset) (fun t => (t.response, t.txEn)) = some (some ⟨.errBadOperand, 0#32⟩, true) := by
  decide

theorem test_setRepeat_unclamped : field (exec (.setRepeat 0xFF#8) State.reset) State.repeatMin = some 0xFF#8 := by decide

theorem test_read_registers :  -- 95_test_vectors.md 2.5
    [0, 1, 3, 4, 9, 10, 255].map (fun r => field (exec (.read r) State.reset) State.response) =
      [some (some ⟨.ok, 0x40#32⟩), some (some ⟨.ok, 0#32⟩), some (some ⟨.ok, 0x3C#32⟩), some (some ⟨.ok, 0x41A00000#32⟩),
        some (some ⟨.ok, 0x7F#32⟩), some (some ⟨.errBadOperand, 0#32⟩), some (some ⟨.errBadOperand, 0#32⟩)] := by decide

theorem test_lookup :  -- 95_test_vectors.md 2.1
    [0x41, 0x5F, 0x20, 0x23, 0x61, 0x60, 0x1F, 0xFF].map (fun c => field (exec (.lookup c) State.reset) State.response) =
      [some (some ⟨.ok, 0x5F#32⟩), some (some ⟨.ok, 0x35#32⟩), some (some ⟨.ok, 0xFF#32⟩)] ++
        List.replicate 5 (some (some ⟨.notEncodable, 0#32⟩)) := by decide

/-- 95_test_vectors.md 2.5: the response bytes of READ 4. -/
theorem test_response_bytes :
    (Response.bytes ⟨.ok, 0x41A00000#32⟩) = [0x00#8, 0x00#8, 0x00#8, 0xA0#8, 0x41#8] := by decide

/-! ### The default Code Table against the element column of 30_encoding.md R84 -/

/-- The ROM byte of an entry: elements, the word space `w`, or nothing. -/
def romByte (m : String) : Byte :=
  if m = "w" then wordSpaceByte else packElements (elements m)

theorem test_default_table_low_half :
    (["w", "-.-.--", ".-..-.", "", "...-..-", "", ".-...", ".----.", "-.--.", "-.--.-", "", ".-.-.", "--..--", "-....-",
      ".-.-.-", "-..-.", "-----", ".----", "..---", "...--", "....-", ".....", "-....", "--...", "---..", "----.",
      "---...", "-.-.-.", "", "-...-", "", "..--.."].map romByte) = defaultCodeBytes.take 32 := by decide

theorem test_default_table_high_half :
    ([".--.-.", ".-", "-...", "-.-.", "-..", ".", "..-.", "--.", "....", "..", ".---", "-.-", ".-..", "--", "-.", "---",
      ".--.", "--.-", ".-.", "...", "-", "..-", "...-", ".--", "-..-", "-.--", "--..", "", "", "", "",
      "..--.-"].map romByte) = defaultCodeBytes.drop 32 := by decide

/-! ### Power-on and the assembler -/

theorem test_power_on_refuses_second_word_space :  -- 30_encoding.md R86
    (match powerOn { Config.default with codeTable := defaultCodeTable.set 1 0xFF#8 } with
      | .refused r => decide (r = .illegalParameters) | _ => false) = true := by decide +kernel

theorem test_assemble_speed :  -- 30_encoding.md R76, 41_configure.md R100
    assembleLine "CONFIGURE 0.1 ; slow".toList = some (.command (.configure 0x3DCCCCCD#32)) ∧
    assembleLine "CONFIGURE -1.0".toList = some (.command (.configure 0xBF800000#32)) ∧
    assembleLine "SETSPEED 0x7FC00000".toList = some (.command (.configure 0x7FC00000#32)) := by decide +kernel

theorem test_assemble_ties_to_even :
    assembleLine "CONFIGURE 16777217".toList = some (.command (.configure 0x4B800000#32)) ∧
    assembleLine "CONFIGURE 16777219".toList = some (.command (.configure 0x4B800002#32)) := by decide +kernel

theorem test_assemble_text_and_names :
    assembleLine "SEND \"A\\x00;\" ; c".toList = some (.command (.send [0x41#8, 0x00#8, 0x3B#8])) ∧
    assembleLine "READ END_TICK".toList = some (.command (.read 8#8)) ∧
    assembleLine "LOOKUP '#'".toList = some (.command (.lookup 0x23#8)) ∧
    (assembleLine "TICKS 3".toList).map SourceLine.commands = some [.tick, .tick, .tick] ∧
    assembleLine "TICK 3".toList = none := by decide +kernel

/-! ### Witnesses: each statement's hypotheses, met together by a concrete state and operands -/

/-- A frame waiting at the head of the stream, another issuer's TICK behind it. -/
def waitingTwo (frame : List Byte) : State :=
  { onAir .dit 5#64 9#64 0xBF#8 with commands := [⟨.host, frame⟩, ⟨.tickSource, [0x01#8]⟩] }

theorem witness_StepRunsDecodedCommand :
    ((waitingTwo [0x01#8]).commands = ⟨.host, [0x01#8]⟩ :: [⟨.tickSource, [0x01#8]⟩] ∧ decode [0x01#8] = .ok .tick) ∧
    ((waitingTwo [0x0B#8]).commands = ⟨.host, [0x0B#8]⟩ :: [⟨.tickSource, [0x01#8]⟩] ∧
      decode [0x0B#8] = .error (.reservedOpcode 0x0B#8)) ∧
    State.reset.commands = [] := by decide

theorem witness_DecodeOfEncode :
    (Instr.send (List.replicate 65535 0x41#8)).wellFormed = true ∧ (Instr.send []).wellFormed = true ∧
    (Instr.setTxen 0xFF#8).wellFormed = true := ⟨test_longest_text_has_a_frame, by decide, by decide⟩

theorem witness_EncodeOfDecode :
    decode [0x03#8, 0x01#8, 0x00#8, 0x45#8] = .ok (.send [0x45#8]) ∧ decode [0x07#8, 0xFF#8] = .ok (.setTxen 0xFF#8) := by
  decide

theorem witness_WrongLengthIsFrameError :
    (waitingTwo [0x01#8, 0x00#8]).commands = ⟨.host, [0x01#8, 0x00#8]⟩ :: [⟨.tickSource, [0x01#8]⟩] ∧
    expectedLength [0x01#8, 0x00#8] ≠ some 2 ∧ expectedLength [] ≠ some 0 ∧
    expectedLength [0x03#8, 0x01#8, 0x00#8] ≠ some 3 := by decide

theorem witness_ReservedOpcodesRejected :
    (waitingTwo [0x0B#8]).commands = ⟨.host, [0x0B#8]⟩ :: [⟨.tickSource, [0x01#8]⟩] ∧
    (0x0B#8 = 0x00#8 ∨ 0x0B ≤ (0x0B#8).toNat) ∧
    (waitingTwo [0x00#8, 0x05#8]).commands = ⟨.host, [0x00#8, 0x05#8]⟩ :: [⟨.tickSource, [0x01#8]⟩] ∧
    (0x00#8 = 0x00#8 ∨ 0x0B ≤ (0x00#8).toNat) := by decide

theorem witness_ResponseIsFirstFailedCheck :
    (waitingTwo [0x09#8, 0x0A#8]).commands = ⟨.host, [0x09#8, 0x0A#8]⟩ :: [⟨.tickSource, [0x01#8]⟩] := by decide

theorem witness_RejectionChangesNothing :
    (waitingTwo [0x07#8, 0x02#8]).commands = ⟨.host, [0x07#8, 0x02#8]⟩ :: [⟨.tickSource, [0x01#8]⟩] ∧
    ∃ t, step (waitingTwo [0x07#8, 0x02#8]) = .next t ∧ t.response = some ⟨.errBadOperand, 0#32⟩ ∧
      ResultCode.errBadOperand ≠ .ok := ⟨by decide, _, rfl, by decide, by decide⟩

theorem witness_IssuersKeepTheirOrder :
    (waitingTwo [0x04#8]).commands = ⟨.host, [0x04#8]⟩ :: [⟨.tickSource, [0x01#8]⟩] ∧
    ∃ t, step (waitingTwo [0x04#8]) = .next t := ⟨by decide, _, rfl⟩

/-- The fastest tick rate that the constraint of R8 admits at TICK_W = 32, with the largest buffer. -/
def fastConfig : Config := { Config.default with tickHz := 2 ^ 20, msgCap := 65535, unitMax := 2 ^ 24 }

theorem witness_PowerOnTakesLegalParameters :
    Config.default.legal = true ∧ fastConfig.legal = true ∧ { Config.default with msgCap := 0 }.legal = false ∧
    { Config.default with codeTable := defaultCodeTable.set 1 0xFF#8 }.legal = false := by decide +kernel

theorem powerOn_of_legal {c : Config} (h : c.legal = true) : ∃ s, powerOn c = .next s := ⟨_, if_pos h⟩

theorem witness_PowerOnMeetsInvariant : ∃ s, powerOn fastConfig = .next s := powerOn_of_legal (by decide +kernel)

theorem witness_StepKeepsInvariant :
    (waitingTwo [0x01#8]).Inv ∧ ∃ t, step (waitingTwo [0x01#8]) = .next t := ⟨by decide +kernel, _, rfl⟩

theorem witness_ReachableStatesAreRegular : ∃ s t, powerOn Config.default = .next s ∧
    Host.Core.run Sys2Proof.core 2 { s with commands := [⟨.host, [0x03#8, 0x01#8, 0x00#8, 0x45#8]⟩, ⟨.tickSource, [0x01#8]⟩] } =
      .next t :=
  ⟨_, _, if_pos (by decide +kernel), rfl⟩

theorem witness_ShiftingConsumesElements :
    (elements "...-..-").length ≤ 7 ∧ 7 ≤ (elements "...-..-").length ∧ 0 < (elements "...-..-").length := by decide

theorem witness_BytesAreCharacters :
    (0x3F#8 ≠ 0x7F#8 ∧ 0x3F#8 ≠ 0xFF#8) ∧ (1 ≤ (elements ".").length ∧ (elements ".").length ≤ 7) ∧
    (1 ≤ (elements "...-..-").length ∧ (elements "...-..-").length ≤ 7) := by decide

theorem witness_LookupIsUnchangedByCommands :
    (∃ t, exec (.send [0x45#8]) (onAir .dit 5#64 9#64 0xBF#8) = .next t) ∧
    ∃ s', exec (.lookup 0x45#8) State.reset = .next s' := ⟨⟨_, rfl⟩, ⟨_, rfl⟩⟩

/-- The classes of a pattern: NaN, negative, zero; infinite; and finite at both ends of each exponent range. -/
theorem witness_UnitQuotientIsExactFloor :
    ((0x7F800001#32).extractLsb' 23 8 = 255#8 ∧ (0x7F800001#32).extractLsb' 0 23 ≠ 0#23) ∧
    (0x80000000#32).getLsbD 31 = true ∧
    ((0x00000000#32).extractLsb' 23 8 = 0#8 ∧ (0x00000000#32).extractLsb' 0 23 = 0#23) ∧
    ([0x00000001#32, 0x007FFFFF#32, 0x00800000#32, 0x7F7FFFFF#32].all fun w =>
      !w.getLsbD 31 && decide ((w.extractLsb' 23 8).toNat < 255) &&
        decide (¬ ((w.extractLsb' 23 8).toNat = 0 ∧ (w.extractLsb' 0 23).toNat = 0))) = true := by decide

theorem witness_ConfigureSetsSpeed :
    fastConfig.unitMax ≤ 2 ^ 24 ∧ State.reset.cfg.unitMax ≤ 2 ^ 24 ∧
    unitQuotient State.reset.cfg.tickHz 0x41A00000#32 = some 60 ∧ unitQuotient State.reset.cfg.tickHz 0x80000000#32 = none := by
  decide +kernel

theorem configure_answers (w : Word) (s : State) : ∃ t, exec (.configure w) s = .next t := by
  show ∃ t, execConfigure w s = .next t
  unfold execConfigure
  split <;> exact ⟨_, rfl⟩

theorem witness_UnitStaysInRange :
    (State.reset.cfg.legal = true ∧ 1 ≤ State.reset.unit.toNat ∧ State.reset.unit.toNat ≤ State.reset.cfg.unitMax ∧
      unitQuotient State.reset.cfg.tickHz 0x44960000#32 = some 1) ∧
    (∃ t, exec .tick State.reset = .next t) ∧ ∃ t, exec (.configure 0x44960000#32) State.reset = .next t :=
  ⟨by decide +kernel, ⟨_, rfl⟩, configure_answers _ _⟩

/-- A speed that is clamped, at the default parameters, and one that is turned away. -/
theorem witness_WpmRecordsOperand :
    (∃ t, exec (.configure 0x44FA0000#32) State.reset = .next t) ∧
    field (exec (.configure 0x44FA0000#32) State.reset) State.response = some (some ⟨.ok, 0#32⟩) ∧
    (∃ t, exec (.configure 0x00000000#32) State.reset = .next t) ∧
    field (exec (.configure 0x00000000#32) State.reset) State.response ≠ some (some ⟨.ok, 0#32⟩) ∧
    State.reset.cfg = Config.default :=
  ⟨configure_answers _ _, by decide +kernel, configure_answers _ _, by decide +kernel, rfl⟩

theorem witness_CornerSpeeds :
    ((0x44FA0000#32, 0, 1#32) : Word × Nat × Word) ∈ [((0x44FA0000#32, 0, 1#32) : Word × Nat × Word)] ∧
    State.reset.cfg = Config.default := ⟨List.mem_singleton_self _, rfl⟩

/-- Exactly MSG_CAP bytes, and one more. -/
theorem witness_SendStoresMessage :
    State.reset.cfg.msgCap ≤ 65535 ∧ (List.replicate 255 0x41#8).length ≤ State.reset.cfg.msgCap := by decide +kernel

theorem witness_SendTooLongChangesNothing : State.reset.cfg.msgCap < (List.replicate 256 0x41#8).length := by decide +kernel

theorem witness_SendReleasesKeyAtOnce :
    ([0x45#8] : List Byte).length ≤ (onAir .dah 2#64 3#64 eoc).cfg.msgCap ∧
    ∃ t, exec (.send [0x45#8]) (onAir .dah 2#64 3#64 eoc) = .next t := ⟨by decide, _, rfl⟩

theorem witness_RepeatingGivesSameState :
    Instr.reset ≠ .tick ∧ (∀ text, Instr.reset ≠ .send text) ∧ ∃ t, exec .reset (onAir .dah 2#64 3#64 eoc) = .next t :=
  ⟨by decide, nofun, _, rfl⟩

theorem witness_MessageWriters :
    (∃ t, exec (.send [0x45#8]) State.reset = .next t ∧ t.buf ≠ State.reset.buf ∧ t.msgLen ≠ State.reset.msgLen) ∧
    (∃ t, exec .reset (onAir .dah 2#64 3#64 eoc) = .next t ∧ t.msgLen ≠ (onAir .dah 2#64 3#64 eoc).msgLen) ∧
    (∃ t, exec .tick (onAir .endOfMessageDelay 8#64 8#64 eoc) = .next t ∧
      t.msgLen ≠ (onAir .endOfMessageDelay 8#64 8#64 eoc).msgLen) :=
  ⟨⟨_, rfl, by decide, by decide⟩, ⟨_, rfl, by decide⟩, ⟨_, rfl, by decide⟩⟩

theorem witness_BusyWriters :
    (∃ t, exec (.send [0x45#8]) State.reset = .next t ∧ State.reset.busy = false ∧ t.busy = true) ∧
    (∃ t, exec .reset (onAir .dah 2#64 3#64 eoc) = .next t ∧ (onAir .dah 2#64 3#64 eoc).busy = true ∧ t.busy = false) ∧
    (∃ t, exec .tick (onAir .endOfMessageDelay 8#64 8#64 eoc) = .next t ∧
      (onAir .endOfMessageDelay 8#64 8#64 eoc).busy = true ∧ t.busy = false) :=
  ⟨⟨_, rfl, by decide, by decide⟩, ⟨_, rfl, by decide, by decide⟩, ⟨_, rfl, by decide, by decide⟩⟩

theorem witness_FlagSettersWriteTheirFlag : (0#8 = 0#8 ∨ 0#8 = 1#8) ∧ (1#8 = 0#8 ∨ 1#8 = 1#8) := by decide

theorem witness_FlagSettersRejectOtherOperands : 2 ≤ (2#8).toNat ∧ 2 ≤ (0xFF#8).toNat := by decide

theorem witness_SettersKeepSequencer :
    (∃ b, Instr.setRepeat 30#8 = .setPreamble b ∨ Instr.setRepeat 30#8 = .setDualfreq b ∨ Instr.setRepeat 30#8 = .setTxen b ∨
      Instr.setRepeat 30#8 = .setRepeat b) ∧ (∃ w, Instr.configure 0#32 = .configure w) ∧
    (∃ t, exec (.setRepeat 30#8) (onAir .dah 2#64 3#64 eoc) = .next t) ∧
    (∃ t, exec (.setRepeat 30#8) State.reset = .next t) ∧ (onAir .dah 2#64 3#64 eoc).cfg = State.reset.cfg :=
  ⟨⟨30#8, .inr (.inr (.inr rfl))⟩, ⟨0#32, rfl⟩, ⟨_, rfl⟩, ⟨_, rfl⟩, rfl⟩

theorem witness_StreamRegisterFields :
    (onAir .dit 1#64 1#64 0xBF#8).stream = consumeElement 0x5F#8 ∧ (onAir .dit 1#64 1#64 0xBF#8).started = true := by decide

theorem witness_OnlyTickCounts :
    ({ onAir .dit 1#64 1#64 0xBF#8 with cfg := { Config.default with tickW := 64 } } : State).cfg.tickW ≤ 64 ∧
    (∃ t, exec .tick (onAir .dit 1#64 1#64 0xBF#8) = .next t) ∧ (Instr.reset ≠ .tick) := ⟨by decide, ⟨_, rfl⟩, by decide⟩

theorem witness_TickAtRestOnlyCounts : State.reset.Inv ∧ State.reset.busy = false := by decide +kernel

/-- Held in Idle by each condition, and in a timed state at both ends of the range that has not expired. -/
theorem witness_TickHoldsState :
    (State.reset.state = .idle ∧ ¬ (State.reset.busy = true ∧ State.reset.txEn = true)) ∧
    ({ queued with txEn := false }.state = .idle ∧ ¬ (queued.busy = true ∧ { queued with txEn := false }.txEn = true)) ∧
    subN 32 (addN 32 (onAir .dit 4#64 5#64 0xBF#8).tick 1) 5#64 = 0 ∧
    subN 32 (addN 32 (onAir .dit 4#64 0x80000005#64 0xBF#8).tick 1) 0x80000005#64 = 2 ^ 31 ∧
    (onAir .dit 4#64 5#64 0xBF#8).state ≠ .idle := by decide

theorem witness_PreambleBeginsPass :
    { queued with preambleEn := true }.state = .idle ∧ { queued with preambleEn := true }.busy = true ∧
    { queued with preambleEn := true }.txEn = true ∧ { queued with preambleEn := true }.started = false := by decide

/-- With a dit left, and with a dah. -/
theorem witness_DecisionKeysNextElement : ∀ x ∈ ([0x5F, 0xBF] : List Byte),
    (onAir .idle 2#64 2#64 x).state = .idle ∧ (onAir .idle 2#64 2#64 x).busy = true ∧ (onAir .idle 2#64 2#64 x).txEn = true ∧
    (onAir .idle 2#64 2#64 x).started = true ∧ (onAir .idle 2#64 2#64 x).stream ≠ 0x7F#8 := by
  simp only [List.forall_mem_cons]
  exact ⟨by decide, by decide, nofun⟩

/-- Before the first decision of a pass, and within it at each class of character. -/
theorem witness_DecisionFetchesCharacter :
    (queued.state = .idle ∧ queued.busy = true ∧ queued.txEn = true ∧ queued.started = false ∧ queued.preambleEn = false ∧
      queued.cursor.toNat < queued.msgLen.toNat ∧ queued.buf.read 0 = some 0x41#8 ∧
      lookupCode queued.rom 0x41#8 = .stream 0x5F#8) ∧
    ((onAir .idle 2#64 2#64 eoc).started = true ∧ (onAir .idle 2#64 2#64 eoc).stream = 0x7F#8) ∧
    (queued.buf.read 1 = some 0x20#8 ∧ lookupCode queued.rom 0x20#8 = .wordSpace) ∧
    (queued.buf.read 2 = some 0x23#8 ∧ lookupCode queued.rom 0x23#8 = .notEncodable) ∧
    ({ onAir .idle 2#64 2#64 eoc with cursor := 3#16 }.cursor.toNat < 4) := by decide

/-- At the end of the message, and of an empty one. -/
theorem witness_EndOfBufferEntersDelay :
    ({ onAir .idle 2#64 2#64 eoc with cursor := 4#16 }.cursor = (onAir .idle 2#64 2#64 eoc).msgLen ∧
      (onAir .idle 2#64 2#64 eoc).started = true ∧ (onAir .idle 2#64 2#64 eoc).stream = 0x7F#8 ∧
      (onAir .idle 2#64 2#64 eoc).state = .idle ∧ (onAir .idle 2#64 2#64 eoc).busy = true ∧
      (onAir .idle 2#64 2#64 eoc).txEn = true) ∧
    ({ queued with msgLen := 0#16 }.cursor = { queued with msgLen := 0#16 }.msgLen ∧ queued.started = false ∧
      queued.preambleEn = false) := by decide

/-- The tick after the last of each element, before and across the wrap. -/
theorem witness_ElementIsFollowedByGap :
    (onAir .dit 5#64 5#64 0xBF#8).state = .dit ∧ (onAir .dah 5#64 5#64 0xBF#8).state = .dah ∧
    (onAir .dit 5#64 5#64 0xBF#8).stream ≠ 0x7F#8 ∧
    State.expired { onAir .dit 5#64 5#64 0xBF#8 with tick := addN 32 5#64 1 } = true ∧
    State.expired { onAir .dah 5#64 0xFFFFFFFF#64 0xBF#8 with tick := addN 32 0xFFFFFFFF#64 1 } = true := by decide

/-- The last character of the message, one before a space, and one before another character. -/
theorem witness_LastElementEndsCharacter :
    ((onAir .dah 5#64 5#64 eoc).state = .dah ∧ (onAir .dah 5#64 5#64 eoc).stream = 0x7F#8 ∧
      State.expired { onAir .dah 5#64 5#64 eoc with tick := addN 32 5#64 1 } = true) ∧
    (3 < (onAir .dah 5#64 5#64 eoc).msgLen.toNat ∧ 3#16 + 1#16 = (onAir .dah 5#64 5#64 eoc).msgLen) ∧
    (0#16 + 1#16 ≠ (onAir .dah 5#64 5#64 eoc).msgLen ∧ (onAir .dah 5#64 5#64 eoc).buf.read 1 = some 0x20#8 ∧
      lookupCode defaultCodeTable 0x20#8 = .wordSpace) ∧
    (2#16 + 1#16 ≠ (onAir .dah 5#64 5#64 eoc).msgLen ∧ (onAir .dah 5#64 5#64 eoc).buf.read 3 = some 0x42#8 ∧
      lookupCode defaultCodeTable 0x42#8 ≠ .wordSpace) := by decide

theorem witness_GapContinuesThroughIdle :
    [KeyerState.ditDelay, .dahDelay, .charGap, .wordGap].all (fun k =>
      (onAir k 5#64 5#64 0xBF#8).busy && State.expired { onAir k 5#64 5#64 0xBF#8 with tick := addN 32 5#64 1 }) = true := by
  decide

theorem witness_PreambleClearsItsFlag :
    (onAir .preamble 5#64 5#64 eoc).state = .preamble ∧ (onAir .preamble 5#64 5#64 eoc).busy = true ∧
    State.expired { onAir .preamble 5#64 5#64 eoc with tick := addN 32 5#64 1 } = true := by decide

theorem witness_EndOfMessageDelayEndsMessage :
    (onAir .endOfMessageDelay 8#64 8#64 eoc).state = .endOfMessageDelay ∧
    State.expired { onAir .endOfMessageDelay 8#64 8#64 eoc with tick := addN 32 8#64 1 } = true := by decide

theorem witness_RepeatDelayStartsNextPass :
    (onAir .messageRepeatDelay 8#64 8#64 eoc).state = .messageRepeatDelay ∧
    (onAir .messageRepeatDelay 8#64 8#64 eoc).busy = true ∧
    State.expired { onAir .messageRepeatDelay 8#64 8#64 eoc with tick := addN 32 8#64 1 } = true := by decide

/-- The narrowest counter at the last tick before its wrap, with the longest duration it admits; and a duration of 1. -/
theorem witness_TimedStateLastsItsDuration :
    (24 ≤ ({ Config.default with tickW := 24 } : Config).tickW ∧ ({ Config.default with tickW := 24 } : Config).tickW ≤ 64 ∧
      (0xFFFFFF#64).toNat < 2 ^ 24 ∧ KeyerState.messageRepeatDelay ≠ .idle ∧ 1 ≤ 2 ^ 23 - 1 ∧ 2 ^ 23 - 1 < 2 ^ (24 - 1) ∧
      2 ^ 23 - 2 < 2 ^ 23 - 1) ∧
    (24 ≤ ({ Config.default with tickW := 64 } : Config).tickW ∧ ({ Config.default with tickW := 64 } : Config).tickW ≤ 64 ∧
      (0xFFFFFF#64).toNat < 2 ^ 64 ∧ KeyerState.dit ≠ .idle ∧ 1 ≤ 1 ∧ 1 < 2 ^ (64 - 1) ∧ 0 < 1) := by decide

/-- The last tick of the last element of the last character, at UNIT = 1. -/
def lastTick : State := { onAir .dit 0xFFFFFFFE#64 0xFFFFFFFE#64 eoc with cursor := 3#16, charsSent := 1#16 }

theorem witness_MessageSentOnceComesToRest :
    lastTick.Inv ∧ lastTick.state = .dit ∧ lastTick.stream = 0x7F#8 ∧ lastTick.tick = lastTick.endTick ∧
    lastTick.cursor.toNat + 1 = lastTick.msgLen.toNat ∧ lastTick.repeatMin = 0#8 ∧
    (1 ≤ 7 * lastTick.unit.toNat ∧ 7 * lastTick.unit.toNat ≤ 7 * lastTick.unit.toNat) :=
  ⟨by decide +kernel, by decide⟩

theorem witness_ElementThenGapThenElement :
    (onAir .idle 2#64 2#64 0x5F#8).Inv ∧ (onAir .idle 2#64 2#64 0x5F#8).busy = true ∧
    (onAir .idle 2#64 2#64 0x5F#8).txEn = true ∧ (onAir .idle 2#64 2#64 0x5F#8).started = true ∧
    (onAir .idle 2#64 2#64 0x5F#8).stream ≠ 0x7F#8 ∧ (onAir .idle 2#64 2#64 0x5F#8).unit.toNat = 1 ∧
    (0 < 1 ∧ 0 < 3 ∧ 1 ≤ 1 ∧ 1 < 1 + 1 ∧ 3 < 3 + 1) :=
  ⟨by decide +kernel, by decide⟩

theorem witness_MutedNeverKeys :
    { onAir .dah 2#64 6#64 eoc with txEn := false }.txEn = false ∧ (∀ b, Instr.tick ≠ .setTxen b) ∧
    ∃ t, exec .tick { onAir .dah 2#64 6#64 eoc with txEn := false } = .next t ∧ t.state.keyDown = true :=
  ⟨by decide, nofun, _, rfl, by decide⟩

theorem witness_DualFreqOnlyDrivesOutputs :
    (∀ x, Instr.tick ≠ .setDualfreq x) ∧ (∀ r, Instr.tick ≠ .read r) ∧
    ∃ t, exec .tick (onAir .dit 5#64 5#64 0xBF#8) = .next t := ⟨nofun, nofun, _, rfl⟩

theorem witness_TickIgnoresWpm : ∃ t, exec .tick (onAir .dit 5#64 5#64 0xBF#8) = .next t := ⟨_, rfl⟩

end Sys2Proof.Tests
end

section
/-! SUPPORT. What each command answers, case by case, and what one step does with the frame at the head of the stream. -/
namespace Sys2Proof.Machine

/-- CONFIGURE: an invalid speed is turned away, any other sets UNIT and WPM (41_configure.md R95). -/
theorem exec_configure_cases (w : Word) (s : State) :
    (unitQuotient s.cfg.tickHz w = none ∧ exec (.configure w) s = .next (s.reject .errInvalidSpeed)) ∨
      ∃ q, unitQuotient s.cfg.tickHz w = some q ∧ exec (.configure w) s =
        .next ({ s with unit := BitVec.ofNat 32 (clampUnit s.cfg q), wpm := w }.respond .ok 0#32) := by
  cases h : unitQuotient s.cfg.tickHz w <;> simp [exec, execConfigure, h]

/-- SEND: a text over MSG_CAP is turned away, any other is stored and starts a message (42_message.md R105). -/
theorem exec_send_cases (text : List Byte) (s : State) :
    (s.cfg.msgCap < text.length ∧ exec (.send text) s = .next (s.reject .errTooLong)) ∨
      (text.length ≤ s.cfg.msgCap ∧ exec (.send text) s =
        .next (({ s with buf := s.buf.writeFrom 0 (storedText text) }.rewind
          (BitVec.ofNat 16 (storedText text).length) true).respond .ok 0#32)) := by
  by_cases h : s.cfg.msgCap < text.length
  · exact .inl ⟨h, by simp [exec, execSend, h]⟩
  · exact .inr ⟨Nat.le_of_not_lt h, by simp [exec, execSend, h]⟩

/-- RESET answers OK (42_message.md R110). -/
theorem exec_reset (s : State) : exec .reset s = .next ((s.rewind 0#16 false).respond .ok 0#32) := rfl

/-- SET_PREAMBLE: an operand that is no flag value is turned away (44_fields.md R155). -/
theorem exec_setPreamble_cases (b : Byte) (s : State) :
    (flagOperand b = none ∧ exec (.setPreamble b) s = .next (s.reject .errBadOperand)) ∨
      ∃ v, flagOperand b = some v ∧
        exec (.setPreamble b) s = .next ({ s with preambleEn := v }.respond .ok 0#32) := by
  cases h : flagOperand b <;> simp [exec, execSetPreamble, h]

/-- SET_DUALFREQ: an operand that is no flag value is turned away (44_fields.md R156). -/
theorem exec_setDualfreq_cases (b : Byte) (s : State) :
    (flagOperand b = none ∧ exec (.setDualfreq b) s = .next (s.reject .errBadOperand)) ∨
      ∃ v, flagOperand b = some v ∧
        exec (.setDualfreq b) s = .next ({ s with dualFreq := v }.respond .ok 0#32) := by
  cases h : flagOperand b <;> simp [exec, execSetDualfreq, h]

/-- SET_TXEN: an operand that is no flag value is turned away (44_fields.md R157). -/
theorem exec_setTxen_cases (b : Byte) (s : State) :
    (flagOperand b = none ∧ exec (.setTxen b) s = .next (s.reject .errBadOperand)) ∨
      ∃ v, flagOperand b = some v ∧
        exec (.setTxen b) s = .next ({ s with txEn := v }.respond .ok 0#32) := by
  cases h : flagOperand b <;> simp [exec, execSetTxen, h]

/-- SET_REPEAT answers OK for every operand (44_fields.md R158). -/
theorem exec_setRepeat (m : Byte) (s : State) :
    exec (.setRepeat m) s = .next ({ s with repeatMin := m }.respond .ok 0#32) := rfl

/-- READ: a number that names no register is turned away (44_fields.md R160). -/
theorem exec_read_cases (r : Byte) (s : State) :
    (RegName.ofByte r = none ∧ exec (.read r) s = .next (s.reject .errBadOperand)) ∨
      ∃ reg, RegName.ofByte r = some reg ∧ exec (.read r) s = .next (s.respond .ok (s.regval reg)) := by
  cases h : RegName.ofByte r <;> simp [exec, execRead, h]

/-- LOOKUP: one answer for each class of the Code Table (40_lookup.md R91). -/
theorem exec_lookup_cases (c : Byte) (s : State) :
    (∃ e, lookupCode s.rom c = .stream e ∧ exec (.lookup c) s = .next (s.respond .ok (e.setWidth 32))) ∨
      (lookupCode s.rom c = .wordSpace ∧ exec (.lookup c) s = .next (s.respond .ok 0xFF#32)) ∨
      (lookupCode s.rom c = .notEncodable ∧ exec (.lookup c) s = .next (s.reject .notEncodable)) := by
  cases h : lookupCode s.rom c <;> simp [exec, execLookup, h]

/-- Whatever else a command does, it ends in a response: no command faults or is refused (60_exceptions.md R174). -/
theorem exec_eq_next_respond (i : Instr) (s : State) :
    ∃ (u : State) (rc : ResultCode) (v : Word), exec i s = .next (u.respond rc v) := by
  cases i with
  | tick => exact ⟨_, _, _, exec_tick s⟩
  | configure w => obtain ⟨-, h⟩ | ⟨q, -, h⟩ := exec_configure_cases w s <;> exact ⟨_, _, _, h⟩
  | send text => obtain ⟨-, h⟩ | ⟨-, h⟩ := exec_send_cases text s <;> exact ⟨_, _, _, h⟩
  | reset => exact ⟨_, _, _, exec_reset s⟩
  | setPreamble b => obtain ⟨-, h⟩ | ⟨v, -, h⟩ := exec_setPreamble_cases b s <;> exact ⟨_, _, _, h⟩
  | setDualfreq b => obtain ⟨-, h⟩ | ⟨v, -, h⟩ := exec_setDualfreq_cases b s <;> exact ⟨_, _, _, h⟩
  | setTxen b => obtain ⟨-, h⟩ | ⟨v, -, h⟩ := exec_setTxen_cases b s <;> exact ⟨_, _, _, h⟩
  | setRepeat m => exact ⟨_, _, _, exec_setRepeat m s⟩
  | read r => obtain ⟨-, h⟩ | ⟨reg, -, h⟩ := exec_read_cases r s <;> exact ⟨_, _, _, h⟩
  | lookup c => obtain ⟨e, -, h⟩ | ⟨-, h⟩ | ⟨-, h⟩ := exec_lookup_cases c s <;> exact ⟨_, _, _, h⟩

/-- With no command waiting a step changes nothing (log 2). -/
theorem step_of_commands_nil {s : State} (h : s.commands = []) : step s = .next s := by
  simp [step, h]

/-- A step runs the command its frame decodes to. -/
theorem step_of_decode_ok {s : State} {c : Command} {rest : List Command} {i : Instr} (hs : s.commands = c :: rest)
    (hd : decode c.frame = .ok i) : step s = exec i (s.accept c rest) := by
  simp [step, hs, hd]

/-- A step answers a frame that is no command with its code alone. -/
theorem step_of_decode_error {s : State} {c : Command} {rest : List Command} {e : DecodeError}
    (hs : s.commands = c :: rest) (hd : decode c.frame = .error e) :
    step s = .next ((s.accept c rest).reject (rejectionCode e)) := by
  simp [step, hs, hd, execRejected]

/-- Every step answers a next state, whatever waits in the stream. -/
theorem step_eq_next (s : State) : ∃ t, step s = .next t := by
  cases hs : s.commands with
  | nil => exact ⟨s, step_of_commands_nil hs⟩
  | cons c rest =>
    cases hd : decode c.frame with
    | error e => exact ⟨_, step_of_decode_error hs hd⟩
    | ok i =>
      obtain ⟨u, rc, v, h⟩ := exec_eq_next_respond i (s.accept c rest)
      exact ⟨u.respond rc v, (step_of_decode_ok hs hd).trans h⟩

/-- Settles O10: each command ends in a response, and a step is such a command, a rejected frame or a wait. -/
theorem everyCommandAnswers : Obligations.EveryCommandAnswers := by
  refine ⟨fun i s => ?_, step_eq_next⟩
  obtain ⟨u, rc, v, h⟩ := exec_eq_next_respond i s
  exact ⟨u.respond rc v, ⟨rc, v⟩, h, State.respond_response u rc v⟩

end Sys2Proof.Machine
end

section
/-! SUPPORT. The legal parameters of 00_scope.md R8, condition by condition, and power-on with and without them. -/
namespace Sys2Proof

/-- The conditions on the parameters: the ranges and the constraint of 00_scope.md R8, the table rule of 30_encoding.md
R86, and a RESET_WPM that names a speed. -/
theorem Config.legal_iff (c : Config) :
    c.legal = true ↔ (1 ≤ c.tickHz ∧ c.tickHz ≤ 2 ^ 20) ∧ (1 ≤ c.msgCap ∧ c.msgCap ≤ 65535) ∧
      (1 ≤ c.unitMax ∧ c.unitMax ≤ 2 ^ 24) ∧ (24 ≤ c.tickW ∧ c.tickW ≤ 64) ∧ c.longest < 2 ^ (c.tickW - 1) ∧
      Machine.legalCodeTable c.codeTable = true ∧ ∃ q, Machine.unitQuotient c.tickHz c.resetWpm = some q := by
  simp only [Config.legal, Bool.and_eq_true, decide_eq_true_eq, Option.isSome_iff_exists, and_assoc]

/-- The unit of the default RESET_WPM, 20.0, at the default tick rate (10_state.md R41). -/
theorem Config.default_resetUnit : Config.default.resetUnit = 60 := by decide

/-- The defaults of 00_scope.md R8 meet every condition. -/
theorem Config.default_legal : Config.default.legal = true := by decide

end Sys2Proof

namespace Sys2Proof.Machine

/-- An accepted unit fits the UNIT register, UNIT_MAX being at most 2^24 (00_scope.md R8, 41_configure.md R97). -/
theorem clampUnit_toNat {c : Config} (h : c.unitMax ≤ 2 ^ 24) (q : Nat) :
    (BitVec.ofNat 32 (clampUnit c q)).toNat = min (max q 1) c.unitMax := by
  have hlt : min (max q 1) c.unitMax < 2 ^ 32 := by omega
  rw [clampUnit, BitVec.toNat_ofNat, Nat.mod_eq_of_lt hlt]

/-- Power-on with legal parameters (70_reset_and_hazards.md R185). -/
theorem powerOn_eq_of_legal {c : Config} (h : c.legal = true) :
    powerOn c = .next { State.reset with cfg := c, unit := BitVec.ofNat 32 c.resetUnit, wpm := c.resetWpm } :=
  if_pos h

/-- Parameters that are not legal are refused (log 8). -/
theorem powerOn_eq_of_not_legal {c : Config} (h : c.legal = false) : powerOn c = .refused .illegalParameters := by
  simp [powerOn, h]

/-- Settles O13: by the conditions of `Config.legal_iff` RESET_WPM has a quotient, and the unit it gives fits the register. -/
theorem powerOnTakesLegalParameters : Obligations.PowerOnTakesLegalParameters := by
  refine ⟨fun c hc => ?_, fun c => powerOn_eq_of_not_legal, ?_⟩
  · obtain ⟨-, -, ⟨-, hmax⟩, -, -, -, q, hq⟩ := c.legal_iff.mp hc
    refine ⟨_, powerOn_eq_of_legal hc, rfl, q, hq, ?_⟩
    have hunit : c.resetUnit = clampUnit c q := by rw [Config.resetUnit, hq, Option.getD_some]
    exact hunit ▸ clampUnit_toNat hmax q
  · rw [powerOn_eq_of_legal Config.default_legal, Config.default_resetUnit]
    rfl

end Sys2Proof.Machine
end

section
/-! SUPPORT. What the exit of a timed state can do, and what a command other than TICK can do: write settings and its
answer alone, or rewind the sequencer. -/
namespace Sys2Proof.Machine

/-- The exits of the timed states (43_tick.md R126 to R136). -/
theorem State.exitTimed_cases (s : State) :
    (s.state = .idle ∧ s.exitTimed = s) ∨
      (s.state = .preamble ∧ s.exitTimed = { s with preambleEn := false }.continueNext) ∨
      (s.state = .dit ∧ s.exitTimed = s.exitElement .ditDelay) ∨
      (s.state = .dah ∧ s.exitTimed = s.exitElement .dahDelay) ∨
      ((s.state = .ditDelay ∨ s.state = .dahDelay ∨ s.state = .charGap ∨ s.state = .wordGap) ∧
        s.exitTimed = s.continueNext) ∨
      (s.state = .messageRepeatDelay ∧ s.exitTimed =
        { s with cursor := 0#16, charsSent := 0#16, stream := eoc, started := false }.continueNext) ∨
      (s.state = .endOfMessageDelay ∧ s.exitTimed = s.rewind 0#16 false) := by
  cases h : s.state <;>
    simp [State.exitTimed, h, State.exitPreamble, State.exitRepeat, State.exitEndOfMessage]

/-- Command `i` takes `s` to `t` and writes at most the registers of CONFIGURE and the setters, UNIT by an accepted unit
and TX_EN by SET_TXEN alone, and the response (41_configure.md R95, R97; 44_fields.md R157, R159). -/
structure SettingsOnly (i : Instr) (s t : State) : Prop where
  same : t = { s with unit := t.unit, wpm := t.wpm, preambleEn := t.preambleEn, dualFreq := t.dualFreq, txEn := t.txEn,
                      repeatMin := t.repeatMin, response := t.response }
  unit : t.unit = s.unit ∨ ∃ q, t.unit = BitVec.ofNat 32 (clampUnit s.cfg q)
  txEn : t.txEn = s.txEn ∨ ∃ b, i = .setTxen b

/-- An answer alone writes no setting. -/
theorem SettingsOnly.respond (i : Instr) (s : State) (rc : ResultCode) (v : Word) : SettingsOnly i s (s.respond rc v) :=
  ⟨rfl, .inl rfl, .inl rfl⟩

/-- The three things a command other than TICK can do: an accepted SEND starts a message, RESET puts the block at rest,
and every other leaves the sequencer alone (42_message.md R105, R110; 44_fields.md R159). -/
theorem exec_cases_of_ne_tick {i : Instr} {s t : State} (hi : i ≠ .tick) (h : exec i s = .next t) :
    (∃ text, i = .send text ∧ text.length ≤ s.cfg.msgCap ∧
        t = ({ s with buf := s.buf.writeFrom 0 (storedText text) }.rewind
          (BitVec.ofNat 16 (storedText text).length) true).respond .ok 0#32) ∨
      (i = .reset ∧ t = (s.rewind 0#16 false).respond .ok 0#32) ∨
      SettingsOnly i s t := by
  cases i with
  | tick => exact absurd rfl hi
  | configure w =>
    obtain ⟨-, e⟩ | ⟨q, -, e⟩ := exec_configure_cases w s <;> cases e.symm.trans h
    · exact .inr (.inr (.respond ..))
    · exact .inr (.inr ⟨rfl, .inr ⟨q, rfl⟩, .inl rfl⟩)
  | send text =>
    obtain ⟨-, e⟩ | ⟨hlen, e⟩ := exec_send_cases text s <;> cases e.symm.trans h
    · exact .inr (.inr (.respond ..))
    · exact .inl ⟨text, rfl, hlen, rfl⟩
  | reset =>
    cases h
    exact .inr (.inl ⟨rfl, rfl⟩)
  | setPreamble b =>
    obtain ⟨-, e⟩ | ⟨v, -, e⟩ := exec_setPreamble_cases b s <;> cases e.symm.trans h
    · exact .inr (.inr (.respond ..))
    · exact .inr (.inr ⟨rfl, .inl rfl, .inl rfl⟩)
  | setDualfreq b =>
    obtain ⟨-, e⟩ | ⟨v, -, e⟩ := exec_setDualfreq_cases b s <;> cases e.symm.trans h
    · exact .inr (.inr (.respond ..))
    · exact .inr (.inr ⟨rfl, .inl rfl, .inl rfl⟩)
  | setTxen b =>
    obtain ⟨-, e⟩ | ⟨v, -, e⟩ := exec_setTxen_cases b s <;> cases e.symm.trans h
    · exact .inr (.inr (.respond ..))
    · exact .inr (.inr ⟨rfl, .inl rfl, .inr ⟨b, rfl⟩⟩)
  | setRepeat m =>
    cases h
    exact .inr (.inr ⟨rfl, .inl rfl, .inl rfl⟩)
  | read r =>
    obtain ⟨-, e⟩ | ⟨reg, -, e⟩ := exec_read_cases r s <;> cases e.symm.trans h <;> exact .inr (.inr (.respond ..))
  | lookup c =>
    obtain ⟨d, -, e⟩ | ⟨-, e⟩ | ⟨-, e⟩ := exec_lookup_cases c s <;> cases e.symm.trans h <;>
      exact .inr (.inr (.respond ..))

end Sys2Proof.Machine
end

section
/-! SUPPORT. The invariant of the block, split so that each operation of the sequencer keeps it: what holds at every
moment of a TICK (`State.Regular`), and what the current state adds (`State.Fits`, the deadline). -/
namespace Sys2Proof.Machine

/-- The part of the invariant that names neither STATE nor BUSY: it holds also between the effects of one TICK. -/
structure State.Regular (s : State) : Prop where
  legal : s.cfg.legal = true
  counts : s.CountsInRange
  stream : s.StreamIsCharacter
  tick_lt : s.tick.toNat < 2 ^ s.cfg.tickW
  endTick_lt : s.endTick.toNat < 2 ^ s.cfg.tickW
  atStart : s.started = false → s.cursor = 0#16 ∧ s.charsSent = 0#16 ∧ s.stream = eoc
  inHand : s.stream ≠ eoc → s.cursor.toNat < s.msgLen.toNat
  buffer : s.BufferDefined

/-- What STATE `k` asks of the character in hand (10_state.md R42 items 4 and 5, and `State.Position`). -/
def State.Fits (s : State) : KeyerState → Prop
  | .idle => True
  | .dit | .dah => s.cursor.toNat < s.msgLen.toNat
  | .ditDelay | .dahDelay => s.stream ≠ eoc
  | .preamble | .charGap | .wordGap | .messageRepeatDelay | .endOfMessageDelay => s.stream = eoc

/-- Items 4 and 5 and the place of the cursor, said state by state. -/
theorem State.fits_iff (s : State) :
    s.Fits s.state ↔ s.ElementLeftInGap ∧ s.NoElementBetween ∧
      (s.state = .dit ∨ s.state = .dah → s.cursor.toNat < s.msgLen.toNat) := by
  cases hk : s.state <;> simp [State.Fits, State.ElementLeftInGap, State.NoElementBetween, hk]

/-- The invariant, in the parts that the proofs below keep one by one. -/
theorem State.inv_iff (s : State) :
    s.Inv ↔ s.Regular ∧ s.RestWhenNotBusy ∧ s.BusyWhenTimed ∧ s.Fits s.state ∧ s.DeadlineAhead := by
  rw [State.fits_iff]
  constructor
  · rintro ⟨legal, counts, rest, timed, gap, between, stream, ahead, ⟨tick, endTick, start, inHand⟩, buffer⟩
    exact ⟨⟨legal, counts, stream, tick, endTick, start, fun h => inHand (.inl h), buffer⟩, rest, timed,
      ⟨gap, between, fun h => inHand (.inr h)⟩, ahead⟩
  · rintro ⟨r, rest, timed, ⟨gap, between, keyed⟩, ahead⟩
    exact ⟨r.legal, r.counts, rest, timed, gap, between, r.stream, ahead,
      ⟨r.tick_lt, r.endTick_lt, r.atStart, fun h => h.elim r.inHand keyed⟩, r.buffer⟩

/-- Every byte but WORDSPACE is a character or EOC (30_encoding.md R80). -/
theorem streamIsCharacter_of_ne {s : State} (h : s.stream ≠ wordSpaceByte) : s.StreamIsCharacter := by
  have all : ∀ e : Byte, e ≠ wordSpaceByte → e = eoc ∨ (1 ≤ elementCount e ∧ elementCount e ≤ 7) := by decide
  exact ⟨all s.stream h, h⟩

/-- Taking an element never leaves WORDSPACE (30_encoding.md R81). -/
theorem consumeElement_ne_wordSpace : ∀ e : Byte, e ≠ wordSpaceByte → e ≠ eoc → consumeElement e ≠ wordSpaceByte := by
  decide

/-- A 16-bit register below another does not wrap when 1 is added (log 7). -/
theorem half_succ_toNat {c m : Half} (h : c.toNat < m.toNat) : (c + 1#16).toNat = c.toNat + 1 := by
  have := m.isLt
  rw [BitVec.toNat_add]
  exact Nat.mod_eq_of_lt (show c.toNat + 1 < 2 ^ 16 by omega)

/-- No state is entered for longer than the longest duration of 00_scope.md R8. -/
theorem entryBound_le_longest (c : Config) (k : KeyerState) : entryBound c k ≤ c.longest := by
  have h7 : 7 * c.unitMax ≤ c.longest := Nat.le_max_left _ _
  cases k <;> simp only [entryBound] <;> omega

/-- The repeat delay stays within its bound (43_tick.md R120, R131). -/
theorem State.repeatDuration_le_longest {s : State} (h : s.unit.toNat ≤ s.cfg.unitMax) :
    s.repeatDuration ≤ s.cfg.longest :=
  max_le_max (Nat.mul_le_mul_left 7 h) (Nat.mul_le_mul_right _ (Nat.min_le_right _ _))

namespace State.Regular

variable {s : State}

/-- TICK_W is between 24 and 64, and the longest duration is below half a turn of the counter (00_scope.md R8). -/
theorem tickW_bounds (h : s.Regular) :
    24 ≤ s.cfg.tickW ∧ s.cfg.tickW ≤ 64 ∧ s.cfg.longest < 2 ^ (s.cfg.tickW - 1) := by
  obtain ⟨-, -, -, ⟨hlo, hhi⟩, hlong, -⟩ := s.cfg.legal_iff.mp h.legal
  exact ⟨hlo, hhi, hlong⟩

/-- Counting a tick wraps within TICK_W bits (43_tick.md R116). -/
theorem countTick (h : s.Regular) : s.countTick.Regular :=
  have ⟨_, hhi, _⟩ := h.tickW_bounds
  { h with tick_lt := addN_lt hhi _ _ }

/-- A cursor that is not at the end of the message is before it (10_state.md R42 item 1). -/
theorem cursor_lt (h : s.Regular) (hne : s.cursor ≠ s.msgLen) : s.cursor.toNat < s.msgLen.toNat :=
  have ⟨_, hcursor, _⟩ := h.counts
  lt_of_le_of_ne hcursor (fun heq => hne (BitVec.eq_of_toNat_eq heq))

/-- Within a pass the position may move to any place within the text, with a character in hand only before its end. -/
theorem moveTo (h : s.Regular) (hstarted : s.started = true) {cursor charsSent : Half} {stream : Byte}
    (hsent : charsSent.toNat ≤ cursor.toNat) (hcursor : cursor.toNat ≤ s.msgLen.toNat) (hstream : stream ≠ wordSpaceByte)
    (hhand : stream ≠ eoc → cursor.toNat < s.msgLen.toNat) :
    State.Regular { s with cursor := cursor, charsSent := charsSent, stream := stream } :=
  have ⟨_, _, hlen, hunit⟩ := h.counts
  { h with
    counts := ⟨hsent, hcursor, hlen, hunit⟩
    stream := streamIsCharacter_of_ne hstream
    atStart := fun hb => absurd (hstarted.symm.trans hb) nofun
    inHand := hhand }

/-- A character in hand, or the one the cursor reads, stands before the end of the message: the cursor may pass it,
counting it or not, and leave nothing in hand (43_tick.md R124, R127). -/
theorem advance (h : s.Regular) (hstarted : s.started = true) (hplace : s.cursor.toNat < s.msgLen.toNat)
    {charsSent : Half} (hsent : charsSent.toNat ≤ s.cursor.toNat + 1) :
    State.Regular { s with cursor := s.cursor + 1#16, charsSent := charsSent, stream := eoc } := by
  have hnext := half_succ_toNat hplace
  exact h.moveTo hstarted (by omega) (by omega) (by decide) (absurd rfl)

/-- The next pass stands at the start of the same message (43_tick.md R136). -/
theorem restart (h : s.Regular) :
    State.Regular { s with cursor := 0#16, charsSent := 0#16, stream := eoc, started := false } :=
  have ⟨_, _, hlen, hunit⟩ := h.counts
  { h with
    counts := ⟨Nat.le_refl _, Nat.zero_le _, hlen, hunit⟩
    stream := streamIsCharacter_of_ne (show eoc ≠ wordSpaceByte by decide)
    atStart := fun _ => ⟨rfl, rfl, rfl⟩
    inHand := absurd rfl }

/-- A pass begins: STARTED is set and nothing moves (43_tick.md R123). -/
theorem start (h : s.Regular) : State.Regular { s with started := true } :=
  { h with atStart := nofun }

/-- A rewound sequencer has the invariant: an idle message position, no character in hand (42_message.md R105, R110). -/
theorem inv_rewind (h : s.Regular) {len : Half} {busy : Bool} (hlen : len.toNat ≤ s.cfg.msgCap)
    (hrest : busy = false → len = 0#16) (hread : ∀ i < len.toNat, (s.buf.read i).isSome = true) :
    (s.rewind len busy).Inv := by
  obtain ⟨-, -, -, hunit⟩ := h.counts
  obtain ⟨hwf, hcap, -⟩ := h.buffer
  refine (State.inv_iff _).mpr ⟨?_, fun hb => ⟨rfl, hrest hb, rfl, rfl, rfl, rfl⟩, nofun, trivial, nofun⟩
  exact ⟨h.legal, ⟨Nat.le_refl _, Nat.zero_le _, hlen, hunit⟩,
    streamIsCharacter_of_ne (show eoc ≠ wordSpaceByte by decide),
    h.tick_lt, h.endTick_lt, fun _ => ⟨rfl, rfl, rfl⟩, fun hs => absurd rfl hs, ⟨hwf, hcap, hread⟩⟩

/-- At rest nothing is asked of the buffer (43_tick.md R134). -/
theorem inv_rewind_rest (h : s.Regular) : (s.rewind 0#16 false).Inv :=
  h.inv_rewind (Nat.zero_le _) (fun _ => rfl) (fun i hi => absurd hi (Nat.not_lt_zero i))

/-- A busy block may wait in Idle at any position (43_tick.md R122). -/
theorem inv_idle (h : s.Regular) (hbusy : s.busy = true) : State.Inv { s with state := .idle } :=
  (State.inv_iff _).mpr ⟨{ h with }, fun hb => absurd (hbusy.symm.trans hb) nofun, nofun, trivial, nofun⟩

/-- A busy block may enter a timed state that the character in hand fits, for 1 to `entryBound` ticks (43_tick.md R118). -/
theorem inv_enter (h : s.Regular) (hbusy : s.busy = true) (hstarted : s.started = true) {k : KeyerState} {d : Nat}
    (hfits : s.Fits k) (h1 : 1 ≤ d) (hd : d ≤ entryBound s.cfg k) : (s.enter k d).Inv := by
  obtain ⟨hlo, hhi, hlong⟩ := h.tickW_bounds
  have hturn := two_pow_eq (n := s.cfg.tickW) (by omega)
  have hbound := entryBound_le_longest s.cfg k
  have hahead : subN s.cfg.tickW (addN s.cfg.tickW s.tick (d - 1)) s.tick = d - 1 :=
    subN_addN_self hhi h.tick_lt (by omega)
  have hdeadline : (s.enter k d).DeadlineAhead := fun _ => by
    show subN s.cfg.tickW (addN s.cfg.tickW s.tick (d - 1)) s.tick < entryBound s.cfg k
    omega
  exact (State.inv_iff _).mpr ⟨{ h with endTick_lt := addN_lt hhi _ _ }, fun hb => absurd (hbusy.symm.trans hb) nofun,
    fun _ => ⟨hbusy, hstarted⟩, hfits, hdeadline⟩

/-! What each operation of the sequencer makes of a busy block. -/

theorem endOfMessage_inv (h : s.Regular) (hbusy : s.busy = true) (hstarted : s.started = true) (hstream : s.stream = eoc) :
    s.endOfMessage.Inv := by
  obtain ⟨-, -, -, hlow, hhigh⟩ := h.counts
  have hseven : 7 * s.unit.toNat ≤ s.repeatDuration := Nat.le_max_left _ _
  obtain ⟨-, e⟩ | ⟨-, e⟩ := s.endOfMessage_cases <;> rw [e]
  · exact h.inv_enter hbusy hstarted hstream (by omega) (Nat.mul_le_mul_left 7 hhigh)
  · exact h.inv_enter hbusy hstarted hstream (by omega) (State.repeatDuration_le_longest hhigh)

theorem element_inv (h : s.Regular) (hbusy : s.busy = true) (hstarted : s.started = true) (hstream : s.stream ≠ eoc) :
    s.element.Inv := by
  obtain ⟨hsent, hcursor, -, hlow, hhigh⟩ := h.counts
  have hplace := h.inHand hstream
  have hrest := h.moveTo hstarted hsent hcursor (consumeElement_ne_wordSpace _ h.stream.2 hstream) (fun _ => hplace)
  obtain ⟨-, e⟩ | ⟨-, e⟩ := s.element_cases <;> rw [e]
  · exact hrest.inv_enter (k := .dah) hbusy hstarted hplace (by omega) (Nat.mul_le_mul_left 3 hhigh)
  · exact hrest.inv_enter (k := .dit) hbusy hstarted hplace hlow hhigh

theorem fetch_inv (h : s.Regular) (hbusy : s.busy = true) (hstarted : s.started = true) (hstream : s.stream = eoc) :
    s.fetch.Inv := by
  obtain ⟨hsent, hcursor, -, hlow, hhigh⟩ := h.counts
  obtain ⟨-, e⟩ | ⟨hne, -, e⟩ | ⟨hne, -, e⟩ | ⟨hne, c, hlookup, e⟩ := s.fetch_cases <;> rw [e]
  · exact h.endOfMessage_inv hbusy hstarted hstream
  · exact (h.advance hstarted (h.cursor_lt hne) (charsSent := s.charsSent) (by omega)).inv_enter hbusy hstarted rfl
      (by omega) (Nat.mul_le_mul_left 7 hhigh)
  · exact (h.advance hstarted (h.cursor_lt hne) (charsSent := s.charsSent) (by omega)).inv_idle hbusy
  · obtain ⟨-, -, hspace, hchar⟩ := lookupCode_eq_stream hlookup
    exact (h.moveTo hstarted hsent hcursor hspace (fun _ => h.cursor_lt hne)).element_inv hbusy hstarted hchar

/-- The first decision of a pass has nothing in hand, since nothing was fetched before it (43_tick.md R123). -/
theorem decideNext_inv (h : s.Regular) (hbusy : s.busy = true) : s.decideNext.Inv := by
  obtain ⟨-, -, -, hlow, hhigh⟩ := h.counts
  obtain ⟨hstarted, hstream, e⟩ | ⟨hstarted, hstream, e⟩ | ⟨hstarted, -, e⟩ | ⟨hstarted, -, e⟩ := s.decideNext_cases <;>
    rw [e]
  · exact h.fetch_inv hbusy hstarted hstream
  · exact h.element_inv hbusy hstarted hstream
  · obtain ⟨-, -, hstream⟩ := h.atStart hstarted
    exact h.start.inv_enter hbusy rfl hstream (by omega) (Nat.mul_le_mul_left 7 hhigh)
  · obtain ⟨-, -, hstream⟩ := h.atStart hstarted
    exact h.start.fetch_inv hbusy rfl hstream

theorem continueNext_inv (h : s.Regular) (hbusy : s.busy = true) : s.continueNext.Inv := by
  obtain ⟨-, e⟩ | ⟨-, e⟩ := s.continueNext_cases <;> rw [e]
  · exact h.decideNext_inv hbusy
  · exact h.inv_idle hbusy

theorem afterCharacter_inv (h : s.Regular) (hbusy : s.busy = true) (hstarted : s.started = true)
    (hstream : s.stream = eoc) : s.afterCharacter.Inv := by
  obtain ⟨hsent, -, -, hlow, hhigh⟩ := h.counts
  obtain ⟨-, e⟩ | ⟨hne, -, e⟩ | ⟨-, -, e⟩ := s.afterCharacter_cases <;> rw [e]
  · exact h.endOfMessage_inv hbusy hstarted hstream
  · have hnext := h.advance hstarted (h.cursor_lt hne) (charsSent := s.charsSent) (by omega)
    rw [← hstream] at hnext
    exact hnext.inv_enter (k := .wordGap) hbusy hstarted hstream (by omega) (Nat.mul_le_mul_left 7 hhigh)
  · exact h.inv_enter hbusy hstarted hstream (by omega) (Nat.mul_le_mul_left 3 hhigh)

/-- Dit and Dah stand at a character of the message, which its last element leaves behind (43_tick.md R126, R127). -/
theorem exitElement_inv (h : s.Regular) (hbusy : s.busy = true) (hstarted : s.started = true)
    (hplace : s.cursor.toNat < s.msgLen.toNat) {gap : KeyerState} (hgap : gap = .ditDelay ∨ gap = .dahDelay) :
    (s.exitElement gap).Inv := by
  obtain ⟨hsent, -, -, hlow, hhigh⟩ := h.counts
  obtain ⟨hstream, e⟩ | ⟨hstream, e⟩ := s.exitElement_cases gap <;> rw [e]
  · obtain rfl | rfl := hgap <;> exact h.inv_enter hbusy hstarted hstream hlow hhigh
  · have hcount := half_succ_toNat (hsent.trans_lt hplace)
    have hnext := h.advance hstarted hplace (charsSent := s.charsSent + 1#16) (by omega)
    rw [← hstream] at hnext
    exact hnext.afterCharacter_inv hbusy hstarted hstream

/-- The exit of every timed state keeps the invariant (43_tick.md R126 to R136). -/
theorem exitTimed_inv (h : s.Regular) (hfits : s.Fits s.state) (htimed : s.BusyWhenTimed) (hstate : s.state ≠ .idle) :
    s.exitTimed.Inv := by
  obtain ⟨hbusy, hstarted⟩ := htimed hstate
  obtain ⟨hk, -⟩ | ⟨-, e⟩ | ⟨hk, e⟩ | ⟨hk, e⟩ | ⟨-, e⟩ | ⟨-, e⟩ | ⟨-, e⟩ := s.exitTimed_cases
  · exact absurd hk hstate
  · rw [e]
    exact continueNext_inv (s := { s with preambleEn := false }) { h with } hbusy
  · rw [hk] at hfits
    rw [e]
    exact h.exitElement_inv hbusy hstarted hfits (.inl rfl)
  · rw [hk] at hfits
    rw [e]
    exact h.exitElement_inv hbusy hstarted hfits (.inr rfl)
  · rw [e]
    exact h.continueNext_inv hbusy
  · rw [e]
    exact h.restart.continueNext_inv hbusy
  · rw [e]
    exact h.inv_rewind_rest

end State.Regular

/-- A deadline that the new tick has not passed is one tick nearer, and still ahead (43_tick.md R119). -/
theorem State.deadlineAhead_countTick {s : State} (h : s.Regular) (hahead : s.DeadlineAhead)
    (hexpired : s.countTick.expired = false) : s.countTick.DeadlineAhead := by
  intro hstate
  obtain ⟨hlo, hhi, -⟩ := h.tickW_bounds
  have hbound : subN s.cfg.tickW s.endTick s.tick < entryBound s.cfg s.state := hahead hstate
  obtain ⟨hpassed, hnearer⟩ := subN_next (by omega) hhi h.tick_lt h.endTick_lt
  have hnow : subN s.cfg.tickW s.endTick s.tick ≠ 0 := fun h0 => by
    have hone : subN s.countTick.cfg.tickW s.countTick.tick s.countTick.endTick = 1 := hpassed h0
    have hhalf : 1 < 2 ^ (s.countTick.cfg.tickW - 1) := Nat.one_lt_two_pow (by rw [countTick_cfg]; omega)
    rw [(State.expired_iff _).mpr (by omega)] at hexpired
    exact absurd hexpired nofun
  show subN s.cfg.tickW s.endTick (addN s.cfg.tickW s.tick 1) < entryBound s.cfg s.state
  rw [hnearer hnow]
  omega

/-- One evaluation after counting keeps the invariant: a decision, a wait, an exit, or a state that goes on
(43_tick.md R115, R117). -/
theorem State.Inv.evaluate_countTick {s : State} (h : s.Inv) : s.countTick.evaluate.Inv := by
  obtain ⟨hreg, hrest, htimed, hfits, hahead⟩ := s.inv_iff.mp h
  have keeps (hd : s.countTick.DeadlineAhead) : s.countTick.Inv :=
    (State.inv_iff _).mpr ⟨hreg.countTick, hrest, htimed, hfits, hd⟩
  obtain ⟨-, ⟨hbusy, -⟩, e⟩ | ⟨hidle, -, e⟩ | ⟨hstate, -, e⟩ | ⟨-, hexpired, e⟩ := s.countTick.evaluate_cases <;> rw [e]
  · exact hreg.countTick.decideNext_inv hbusy
  · exact keeps (fun hstate => absurd hidle hstate)
  · exact hreg.countTick.exitTimed_inv hfits htimed hstate
  · exact keeps (State.deadlineAhead_countTick hreg hahead hexpired)

end Sys2Proof.Machine
end

section
/-! SUPPORT. The invariant is kept by every command, every step and every run (10_state.md R42). -/
namespace Sys2Proof.Machine

/-- A stored text leaves a defined buffer: its own bytes, and those that were there (42_message.md R105). -/
theorem State.Regular.store {s : State} (h : s.Regular) {text : List Byte} (htext : text.length ≤ s.cfg.msgCap) :
    State.Regular { s with buf := s.buf.writeFrom 0 text } := by
  obtain ⟨hwf, hcap, hread⟩ := h.buffer
  refine { h with buffer := ⟨Memory.wf_writeFrom hwf 0 text, fun cell hcell => ?_, fun i hi => ?_⟩ }
  · obtain hold | ⟨-, hnew⟩ := Memory.mem_writeFrom hcell
    · exact hcap cell hold
    · show cell.1 < s.cfg.msgCap
      omega
  · show ((s.buf.writeFrom 0 text).read i).isSome = true
    rw [Memory.read_writeFrom]
    split
    next hnew => simpa using hnew
    next => exact hread i hi

/-- The stored text is part of the delivered one (42_message.md R107). -/
theorem storedText_length_le (text : List Byte) : (storedText text).length ≤ text.length :=
  (List.takeWhile_sublist _).length_le

/-- An accepted SEND: every byte below the new MSG_LEN is one of the text. -/
theorem State.Regular.inv_send {s : State} (h : s.Regular) {text : List Byte} (htext : text.length ≤ s.cfg.msgCap) :
    (State.rewind { s with buf := s.buf.writeFrom 0 text } (BitVec.ofNat 16 text.length) true).Inv := by
  obtain ⟨-, ⟨-, hcap⟩, -⟩ := s.cfg.legal_iff.mp h.legal
  have hlen : (BitVec.ofNat 16 text.length).toNat = text.length := by
    rw [BitVec.toNat_ofNat]
    omega
  refine (h.store htext).inv_rewind (hlen.trans_le htext) nofun fun i hi => ?_
  rw [hlen] at hi
  show ((s.buf.writeFrom 0 text).read i).isSome = true
  rw [Memory.read_writeFrom, if_pos (by omega)]
  simpa using hi

/-- An accepted unit is in the range of the invariant (10_state.md R42 item 1, 41_configure.md R97). -/
theorem clampUnit_range {c : Config} (h : c.legal = true) (q : Nat) :
    1 ≤ (BitVec.ofNat 32 (clampUnit c q)).toNat ∧ (BitVec.ofNat 32 (clampUnit c q)).toNat ≤ c.unitMax := by
  obtain ⟨-, -, ⟨hlow, hhigh⟩, -⟩ := c.legal_iff.mp h
  rw [clampUnit_toNat hhigh]
  omega

/-- Settings keep the invariant: of them it names UNIT alone, and an accepted unit is in range (41_configure.md R97). -/
theorem SettingsOnly.inv {i : Instr} {s t : State} (hset : SettingsOnly i s t) (h : s.Inv) : t.Inv := by
  obtain ⟨hreg, hrest, htimed, hfits, hahead⟩ := s.inv_iff.mp h
  obtain ⟨hsent, hcursor, hlen, hunit⟩ := hreg.counts
  have hunit' : 1 ≤ t.unit.toNat ∧ t.unit.toNat ≤ s.cfg.unitMax := by
    obtain e | ⟨q, e⟩ := hset.unit <;> rw [e]
    · exact hunit
    · exact clampUnit_range hreg.legal q
  rw [hset.same]
  exact (State.inv_iff _).mpr ⟨{ hreg with counts := ⟨hsent, hcursor, hlen, hunit'⟩ }, hrest, htimed, hfits, hahead⟩

/-- Every command keeps the invariant. -/
theorem exec_inv {i : Instr} {s t : State} (hs : s.Inv) (h : exec i s = .next t) : t.Inv := by
  by_cases hi : i = .tick
  · subst hi
    cases h
    exact hs.evaluate_countTick
  · obtain ⟨hreg, -⟩ := s.inv_iff.mp hs
    obtain ⟨text, -, hlen, rfl⟩ | ⟨-, rfl⟩ | hset := exec_cases_of_ne_tick hi h
    · exact hreg.inv_send ((storedText_length_le text).trans hlen)
    · exact hreg.inv_rewind_rest
    · exact hset.inv hs

/-- Every step keeps the invariant: taking a frame and rejecting one touch no register that it names. -/
theorem step_inv {s t : State} (hs : s.Inv) (h : step s = .next t) : t.Inv := by
  cases hc : s.commands with
  | nil =>
    cases (step_of_commands_nil hc).symm.trans h
    exact hs
  | cons c rest =>
    have haccept : (s.accept c rest).Inv := hs
    cases hd : decode c.frame with
    | error e =>
      cases (step_of_decode_error hc hd).symm.trans h
      exact haccept
    | ok i => exact exec_inv haccept ((step_of_decode_ok hc hd).symm.trans h)

/-- What holds at the start and is kept by every step holds after every run. -/
theorem run_inv {k : Nat} {s t : State} (hs : s.Inv) (h : Host.Core.run core k s = .next t) : t.Inv := by
  induction k generalizing s with
  | zero =>
    cases h
    exact hs
  | succ k ih =>
    obtain ⟨u, hu⟩ := step_eq_next s
    have hrun : Host.Core.run core (k + 1) s = Host.Core.run core k u := by
      simp only [Host.Core.run, show core.step s = .next u from hu]
    exact ih (step_inv hs hu) (hrun.symm.trans h)

/-- Power-on with legal parameters gives a block at rest, which has the invariant (70_reset_and_hazards.md R185). -/
theorem powerOn_inv {c : Config} {s : State} (h : powerOn c = .next s) : s.Inv := by
  cases hlegal : c.legal with
  | false => exact absurd ((powerOn_eq_of_not_legal hlegal).symm.trans h) nofun
  | true =>
    cases (powerOn_eq_of_legal hlegal).symm.trans h
    have hreg : State.Regular { State.reset with cfg := c, unit := BitVec.ofNat 32 c.resetUnit, wpm := c.resetWpm } := {
      legal := hlegal
      counts := ⟨Nat.le_refl _, Nat.le_refl _, Nat.zero_le _, clampUnit_range hlegal _⟩
      stream := streamIsCharacter_of_ne (show eoc ≠ wordSpaceByte by decide)
      tick_lt := Nat.two_pow_pos _
      endTick_lt := Nat.two_pow_pos _
      atStart := fun _ => ⟨rfl, rfl, rfl⟩
      inHand := absurd rfl
      buffer := ⟨State.reset_buf_wf, nofun, fun i hi => absurd hi (Nat.not_lt_zero i)⟩ }
    exact hreg.inv_rewind_rest

/-- Settles O15, by `step_inv`. -/
theorem stepKeepsInvariant : Obligations.StepKeepsInvariant := fun _ _ => step_inv

/-- Settles O16: the invariant holds at power-on whatever frames wait, and along the run. -/
theorem reachableStatesAreRegular : Obligations.ReachableStatesAreRegular := by
  intro c s t cs k hon hrun
  have hs : s.Inv := powerOn_inv hon
  have hstart : State.Inv { s with commands := cs } := hs
  obtain ⟨-, hcounts, hrest, htimed, hgap, hbetween, hstream, hahead, -⟩ := run_inv hstart hrun
  exact ⟨hcounts, hrest, htimed, hgap, hbetween, hstream, hahead⟩

/-- Settles O14: `State.reset` is what power-on gives at the default parameters. -/
theorem powerOnMeetsInvariant : Obligations.PowerOnMeetsInvariant := by
  obtain ⟨-, -, hdefault⟩ := powerOnTakesLegalParameters
  exact ⟨powerOn_inv hdefault, fun _ _ => powerOn_inv⟩

/-- Settles O12: each register of R41 is read off `State.reset`, and STATUS is worked out from them. -/
theorem powerOnValues : Obligations.PowerOnValues :=
  ⟨rfl, rfl, rfl, rfl, rfl, rfl, rfl, rfl, rfl, rfl, rfl, rfl, rfl, rfl, rfl, rfl, rfl, rfl, rfl, rfl, by decide⟩

end Sys2Proof.Machine
end

section
/-! SUPPORT. What a TICK does to BUSY and MSG_LEN, to the key while the transmitter is disabled, and to the registers that
no sequencing rule reads. -/
namespace Sys2Proof.Machine

/-- `t` has the fields of `s` that the sequencer writes at the end of a message only (10_state.md R26, R31). -/
structure MessageFrame (s t : State) : Prop where
  busy : t.busy = s.busy
  msgLen : t.msgLen = s.msgLen

theorem State.endOfMessage_messageFrame (s : State) : MessageFrame s s.endOfMessage := by
  obtain ⟨-, e⟩ | ⟨-, e⟩ := s.endOfMessage_cases <;> rw [e] <;> exact ⟨rfl, rfl⟩

theorem State.element_messageFrame (s : State) : MessageFrame s s.element := by
  obtain ⟨-, e⟩ | ⟨-, e⟩ := s.element_cases <;> rw [e] <;> exact ⟨rfl, rfl⟩

theorem State.fetch_messageFrame (s : State) : MessageFrame s s.fetch := by
  obtain ⟨-, e⟩ | ⟨-, -, e⟩ | ⟨-, -, e⟩ | ⟨-, c, -, e⟩ := s.fetch_cases <;> rw [e]
  · exact s.endOfMessage_messageFrame
  · exact ⟨rfl, rfl⟩
  · exact ⟨rfl, rfl⟩
  · have hkeyed := State.element_messageFrame { s with stream := c }
    exact ⟨hkeyed.busy, hkeyed.msgLen⟩

theorem State.decideNext_messageFrame (s : State) : MessageFrame s s.decideNext := by
  obtain ⟨-, -, e⟩ | ⟨-, -, e⟩ | ⟨-, -, e⟩ | ⟨-, -, e⟩ := s.decideNext_cases <;> rw [e]
  · exact s.fetch_messageFrame
  · exact s.element_messageFrame
  · exact ⟨rfl, rfl⟩
  · have hfetched := State.fetch_messageFrame { s with started := true }
    exact ⟨hfetched.busy, hfetched.msgLen⟩

theorem State.continueNext_messageFrame (s : State) : MessageFrame s s.continueNext := by
  obtain ⟨-, e⟩ | ⟨-, e⟩ := s.continueNext_cases <;> rw [e]
  · exact s.decideNext_messageFrame
  · exact ⟨rfl, rfl⟩

theorem State.afterCharacter_messageFrame (s : State) : MessageFrame s s.afterCharacter := by
  obtain ⟨-, e⟩ | ⟨-, -, e⟩ | ⟨-, -, e⟩ := s.afterCharacter_cases <;> rw [e]
  · exact s.endOfMessage_messageFrame
  · exact ⟨rfl, rfl⟩
  · exact ⟨rfl, rfl⟩

theorem State.exitElement_messageFrame (s : State) (gap : KeyerState) : MessageFrame s (s.exitElement gap) := by
  obtain ⟨-, e⟩ | ⟨-, e⟩ := s.exitElement_cases gap <;> rw [e]
  · exact ⟨rfl, rfl⟩
  · have hpassed := State.afterCharacter_messageFrame
      { s with charsSent := s.charsSent + 1#16, cursor := s.cursor + 1#16 }
    exact ⟨hpassed.busy, hpassed.msgLen⟩

/-- Of all exits, that of EndOfMessageDelay alone writes them (43_tick.md R134). -/
theorem State.exitTimed_messageFrame {s : State} (h : s.state ≠ .endOfMessageDelay) : MessageFrame s s.exitTimed := by
  obtain ⟨-, e⟩ | ⟨-, e⟩ | ⟨-, e⟩ | ⟨-, e⟩ | ⟨-, e⟩ | ⟨-, e⟩ | ⟨hk, -⟩ := s.exitTimed_cases
  · rw [e]
    exact ⟨rfl, rfl⟩
  · have hgoes := State.continueNext_messageFrame { s with preambleEn := false }
    rw [e]
    exact ⟨hgoes.busy, hgoes.msgLen⟩
  · rw [e]
    exact s.exitElement_messageFrame _
  · rw [e]
    exact s.exitElement_messageFrame _
  · rw [e]
    exact s.continueNext_messageFrame
  · have hgoes := State.continueNext_messageFrame
      { s with cursor := 0#16, charsSent := 0#16, stream := eoc, started := false }
    rw [e]
    exact ⟨hgoes.busy, hgoes.msgLen⟩
  · exact absurd hk h

/-- An evaluation ends the message, or leaves BUSY and MSG_LEN as they are. -/
theorem State.evaluate_messageFrame (s : State) :
    (s.state = .endOfMessageDelay ∧ s.expired = true ∧ s.evaluate = s.rewind 0#16 false) ∨ MessageFrame s s.evaluate := by
  obtain ⟨-, -, e⟩ | ⟨-, -, e⟩ | ⟨-, hexpired, e⟩ | ⟨-, -, e⟩ := s.evaluate_cases <;> rw [e]
  · exact .inr s.decideNext_messageFrame
  · exact .inr ⟨rfl, rfl⟩
  · by_cases hk : s.state = .endOfMessageDelay
    · exact .inl ⟨hk, hexpired, by simp [State.exitTimed, hk, State.exitEndOfMessage]⟩
    · exact .inr (State.exitTimed_messageFrame hk)
  · exact .inr ⟨rfl, rfl⟩

/-- The end of a message keys nothing (43_tick.md R145). -/
theorem State.endOfMessage_keyDown (s : State) : s.endOfMessage.state.keyDown = false := by
  obtain ⟨-, e⟩ | ⟨-, e⟩ := s.endOfMessage_cases <;> rw [e] <;> rfl

/-- What follows a character keys nothing. -/
theorem State.afterCharacter_keyDown (s : State) : s.afterCharacter.state.keyDown = false := by
  obtain ⟨-, e⟩ | ⟨-, -, e⟩ | ⟨-, -, e⟩ := s.afterCharacter_cases <;> rw [e]
  · exact s.endOfMessage_keyDown
  · rfl
  · rfl

/-- What follows an element keys nothing, its gap being none of the keyed states. -/
theorem State.exitElement_keyDown (s : State) {gap : KeyerState} (h : gap.keyDown = false) :
    (s.exitElement gap).state.keyDown = false := by
  obtain ⟨-, e⟩ | ⟨-, e⟩ := s.exitElement_cases gap <;> rw [e]
  · exact h
  · exact State.afterCharacter_keyDown _

/-- With the transmitter disabled a decision point goes to Idle (43_tick.md R122). -/
theorem State.continueNext_keyDown_of_muted {s : State} (h : s.txEn = false) : s.continueNext.state.keyDown = false := by
  simp [State.continueNext, h, KeyerState.keyDown]

/-- With the transmitter disabled every exit releases the key (43_tick.md R149). -/
theorem State.exitTimed_keyDown_of_muted {s : State} (h : s.txEn = false) : s.exitTimed.state.keyDown = false := by
  obtain ⟨hk, e⟩ | ⟨-, e⟩ | ⟨-, e⟩ | ⟨-, e⟩ | ⟨-, e⟩ | ⟨-, e⟩ | ⟨-, e⟩ := s.exitTimed_cases <;> rw [e]
  · rw [hk]
    rfl
  · exact State.continueNext_keyDown_of_muted h
  · exact s.exitElement_keyDown rfl
  · exact s.exitElement_keyDown rfl
  · exact State.continueNext_keyDown_of_muted h
  · exact State.continueNext_keyDown_of_muted h
  · rfl

/-- With the transmitter disabled an evaluation changes nothing, or leaves the key up. -/
theorem State.evaluate_of_muted {s : State} (h : s.txEn = false) :
    s.evaluate = s ∨ s.evaluate.state.keyDown = false := by
  obtain ⟨-, ⟨-, htx⟩, -⟩ | ⟨-, -, e⟩ | ⟨-, -, e⟩ | ⟨-, -, e⟩ := s.evaluate_cases
  · exact absurd (h.symm.trans htx) nofun
  · exact .inl e
  · exact .inr (e ▸ State.exitTimed_keyDown_of_muted h)
  · exact .inl e

/-- `s` with other values in the two registers that no sequencing rule reads (10_state.md R24, R33). -/
def State.withUnread (s : State) (dualFreq : Bool) (wpm : Word) : State := { s with dualFreq := dualFreq, wpm := wpm }

section Unread

variable (s : State) (b : Bool) (w : Word)

@[simp] theorem State.withUnread_state : (s.withUnread b w).state = s.state := rfl
@[simp] theorem State.withUnread_stream : (s.withUnread b w).stream = s.stream := rfl
@[simp] theorem State.withUnread_cursor : (s.withUnread b w).cursor = s.cursor := rfl
@[simp] theorem State.withUnread_msgLen : (s.withUnread b w).msgLen = s.msgLen := rfl
@[simp] theorem State.withUnread_rom : (s.withUnread b w).rom = s.rom := rfl
@[simp] theorem State.withUnread_bufByte (i : Nat) : (s.withUnread b w).bufByte i = s.bufByte i := rfl

theorem State.endOfMessage_withUnread : (s.withUnread b w).endOfMessage = s.endOfMessage.withUnread b w := by
  obtain ⟨h, e⟩ | ⟨h, e⟩ := s.endOfMessage_cases <;> rw [e]
  · exact if_pos h
  · exact if_neg h

theorem State.element_withUnread : (s.withUnread b w).element = s.element.withUnread b w := by
  obtain ⟨h, e⟩ | ⟨h, e⟩ := s.element_cases <;> rw [e] <;> simp only [element, withUnread_stream, h] <;> rfl

theorem State.fetch_withUnread : (s.withUnread b w).fetch = s.fetch.withUnread b w := by
  by_cases h : s.cursor = s.msgLen
  · rw [show s.fetch = s.endOfMessage from if_pos h]
    exact (if_pos h).trans (s.endOfMessage_withUnread b w)
  · unfold fetch
    simp only [withUnread_rom, withUnread_bufByte, withUnread_cursor, withUnread_msgLen, h, if_false]
    cases lookupCode s.rom (s.bufByte s.cursor.toNat) with
    | wordSpace => rfl
    | notEncodable => rfl
    | stream e => exact State.element_withUnread { s with stream := e } b w

theorem State.decideNext_withUnread : (s.withUnread b w).decideNext = s.decideNext.withUnread b w := by
  obtain ⟨h, hs, e⟩ | ⟨h, hs, e⟩ | ⟨h, hp, e⟩ | ⟨h, hp, e⟩ := s.decideNext_cases <;> rw [e]
  · exact (if_pos h).trans ((if_pos hs).trans (s.fetch_withUnread b w))
  · exact (if_pos h).trans ((if_neg hs).trans (s.element_withUnread b w))
  · exact (if_neg (ne_true_of_eq_false h)).trans (if_pos hp)
  · exact (if_neg (ne_true_of_eq_false h)).trans ((if_neg (ne_true_of_eq_false hp)).trans
      (State.fetch_withUnread { s with started := true } b w))

theorem State.continueNext_withUnread : (s.withUnread b w).continueNext = s.continueNext.withUnread b w := by
  obtain ⟨h, e⟩ | ⟨h, e⟩ := s.continueNext_cases <;> rw [e]
  · exact (if_pos h).trans (s.decideNext_withUnread b w)
  · exact if_neg (ne_true_of_eq_false h)

theorem State.afterCharacter_withUnread : (s.withUnread b w).afterCharacter = s.afterCharacter.withUnread b w := by
  by_cases h : s.cursor = s.msgLen
  · rw [show s.afterCharacter = s.endOfMessage from if_pos h]
    exact (if_pos h).trans (s.endOfMessage_withUnread b w)
  · unfold afterCharacter
    simp only [withUnread_rom, withUnread_bufByte, withUnread_cursor, withUnread_msgLen, h, if_false]
    cases lookupCode s.rom (s.bufByte s.cursor.toNat) <;> rfl

theorem State.exitElement_withUnread (gap : KeyerState) :
    (s.withUnread b w).exitElement gap = (s.exitElement gap).withUnread b w := by
  obtain ⟨h, e⟩ | ⟨h, e⟩ := s.exitElement_cases gap <;> rw [e]
  · exact if_neg h
  · exact (if_pos h).trans
      (State.afterCharacter_withUnread { s with charsSent := s.charsSent + 1#16, cursor := s.cursor + 1#16 } b w)

theorem State.exitTimed_withUnread : (s.withUnread b w).exitTimed = s.exitTimed.withUnread b w := by
  unfold exitTimed
  rw [withUnread_state]
  cases s.state
  case idle => rfl
  case preamble => exact State.continueNext_withUnread { s with preambleEn := false } b w
  case dit => exact s.exitElement_withUnread b w _
  case dah => exact s.exitElement_withUnread b w _
  case messageRepeatDelay =>
    exact State.continueNext_withUnread
      { s with cursor := 0#16, charsSent := 0#16, stream := eoc, started := false } b w
  case endOfMessageDelay => rfl
  all_goals exact s.continueNext_withUnread b w

/-- An evaluation goes the same way whatever those registers hold, and carries them along. -/
theorem State.evaluate_withUnread : (s.withUnread b w).evaluate = s.evaluate.withUnread b w := by
  obtain ⟨h, hgo, e⟩ | ⟨h, hgo, e⟩ | ⟨h, hx, e⟩ | ⟨h, hx, e⟩ := s.evaluate_cases <;> rw [e]
  · exact (if_pos h).trans ((if_pos (Bool.and_eq_true_iff.mpr hgo)).trans (s.decideNext_withUnread b w))
  · exact (if_pos h).trans (if_neg (mt Bool.and_eq_true_iff.mp hgo))
  · exact (if_neg h).trans ((if_pos hx).trans (s.exitTimed_withUnread b w))
  · exact (if_neg h).trans (if_neg (ne_true_of_eq_false hx))

/-- So does a whole TICK. -/
theorem exec_tick_withUnread {t : State} (h : exec .tick s = .next t) :
    exec .tick (s.withUnread b w) = .next (t.withUnread b w) := by
  cases h
  rw [exec_tick]
  have heval : (s.withUnread b w).countTick.evaluate = s.countTick.evaluate.withUnread b w :=
    s.countTick.evaluate_withUnread b w
  rw [heval]
  rfl

end Unread

end Sys2Proof.Machine
end

section
/-! SUPPORT. The statements about who writes BUSY and TICK, and about what TX_EN, DUAL_FREQ and WPM do not change. -/
namespace Sys2Proof.Machine

/-- Settles O33: a TICK writes BUSY at the end of a message only, and of the other commands SEND and RESET alone do. -/
theorem busyWriters : Obligations.BusyWriters := by
  intro i s t h
  by_cases hi : i = .tick
  · subst hi
    cases h
    obtain ⟨hstate, hexpired, e⟩ | hframe := s.countTick.evaluate_messageFrame
    · have hcleared : (s.countTick.evaluate.respond .ok 0#32).busy = false := by rw [e]; rfl
      exact ⟨fun _ hset => absurd (hcleared.symm.trans hset) nofun, fun _ _ => .inr ⟨rfl, hstate, hexpired⟩⟩
    · have hkept : (s.countTick.evaluate.respond .ok 0#32).busy = s.busy := hframe.busy
      rw [hkept]
      exact ⟨fun h0 h1 => absurd (h0.symm.trans h1) nofun, fun h1 h0 => absurd (h0.symm.trans h1) nofun⟩
  · obtain ⟨text, rfl, hlen, rfl⟩ | ⟨rfl, rfl⟩ | hset := exec_cases_of_ne_tick hi h
    · exact ⟨fun _ _ => ⟨text, rfl, hlen⟩, fun _ => nofun⟩
    · exact ⟨fun _ => nofun, fun _ _ => .inl rfl⟩
    · have hkept : t.busy = s.busy := by rw [hset.same]
      rw [hkept]
      exact ⟨fun h0 h1 => absurd (h0.symm.trans h1) nofun, fun h1 h0 => absurd (h0.symm.trans h1) nofun⟩

/-- Settles O41: counting is the first effect of a TICK and nothing after it, or in another command, writes TICK. -/
theorem onlyTickCounts : Obligations.OnlyTickCounts := by
  intro i s t hw h
  constructor
  · rintro rfl
    cases h
    have hkept : s.countTick.evaluate.tick = addN s.cfg.tickW s.tick 1 := s.countTick.evaluate_frame.tick
    rw [State.respond_tick, hkept, addN_toNat hw]
  · intro hi
    obtain ⟨text, -, -, rfl⟩ | ⟨-, rfl⟩ | hset := exec_cases_of_ne_tick hi h
    · rfl
    · rfl
    · rw [hset.same]

/-- With TX_EN = 0 neither line of the key is driven (43_tick.md R146, R149). -/
theorem State.outputs_of_muted {s : State} (h : s.txEn = false) : s.transmit = false ∧ s.txOut = false := by
  have htransmit : s.transmit = false := by simp [State.transmit, h]
  exact ⟨htransmit, by simp [State.txOut, h, htransmit]⟩

/-- A command other than SET_TXEN keeps TX_EN (10_state.md R34). -/
theorem exec_txEn {i : Instr} {s t : State} (h : exec i s = .next t) (hi : ∀ b, i ≠ .setTxen b) : t.txEn = s.txEn := by
  by_cases htick : i = .tick
  · subst htick
    cases h
    exact s.countTick.evaluate_frame.txEn
  · obtain ⟨text, -, -, rfl⟩ | ⟨-, rfl⟩ | hset := exec_cases_of_ne_tick htick h
    · rfl
    · rfl
    · exact hset.txEn.resolve_right fun ⟨b, hb⟩ => hi b hb

/-- With the transmitter disabled no command makes a new key-down state: it keeps the one it finds, or leaves the key up
(43_tick.md R149). -/
theorem exec_keyDown_of_muted {i : Instr} {s t : State} (hmuted : s.txEn = false) (h : exec i s = .next t) :
    (t.state = s.state ∧ t.endTick = s.endTick ∧ t.stream = s.stream) ∨ t.state.keyDown = false := by
  by_cases htick : i = .tick
  · subst htick
    cases h
    have hcount : s.countTick.txEn = false := hmuted
    obtain e | hup := State.evaluate_of_muted hcount
    · rw [e]
      exact .inl ⟨rfl, rfl, rfl⟩
    · exact .inr hup
  · obtain ⟨text, -, -, rfl⟩ | ⟨-, rfl⟩ | hset := exec_cases_of_ne_tick htick h
    · exact .inr rfl
    · exact .inr rfl
    · rw [hset.same]
      exact .inl ⟨rfl, rfl, rfl⟩

/-- Settles O58: the output equations, and that with TX_EN = 0 a command keys nothing. -/
theorem mutedNeverKeys : Obligations.MutedNeverKeys := by
  refine ⟨fun s => State.outputs_of_muted, fun i s t hmuted h hi => ?_⟩
  have hmuted' : t.txEn = false := (exec_txEn h hi).trans hmuted
  obtain ⟨htransmit, htxOut⟩ := State.outputs_of_muted hmuted'
  refine ⟨hmuted', htransmit, htxOut, fun hdown => ?_⟩
  exact (exec_keyDown_of_muted hmuted h).resolve_right fun hup => absurd (hup.symm.trans hdown) nofun

/-- Settles O60: `exec_tick_withUnread` with DUAL_FREQ as it is, which a TICK does not write. -/
theorem tickIgnoresWpm : Obligations.TickIgnoresWpm := by
  intro s t w h
  have hkept : t.dualFreq = s.dualFreq := by
    cases h
    exact s.countTick.evaluate_frame.dualFreq
  have hafter : { t with wpm := w } = t.withUnread s.dualFreq w := by rw [← hkept]; rfl
  rw [hafter]
  exact exec_tick_withUnread s s.dualFreq w h

/-- A command other than TICK, SET_DUALFREQ and READ does the same in a state with another DUAL_FREQ, and carries it along
(44_fields.md R156). -/
theorem exec_of_dualFreq {i : Instr} {s t : State} (b : Bool) (htick : i ≠ .tick) (hdual : ∀ x, i ≠ .setDualfreq x)
    (hread : ∀ r, i ≠ .read r) (h : exec i s = .next t) :
    exec i { s with dualFreq := b } = .next { t with dualFreq := b } := by
  cases i with
  | tick => exact absurd rfl htick
  | configure w =>
    obtain ⟨hq, e⟩ | ⟨q, hq, e⟩ := exec_configure_cases w s <;> cases e.symm.trans h <;>
      simp only [exec, execConfigure, hq] <;> rfl
  | send text =>
    obtain ⟨hlen, e⟩ | ⟨hlen, e⟩ := exec_send_cases text s <;> cases e.symm.trans h
    · exact if_pos hlen
    · exact if_neg (Nat.not_lt.mpr hlen)
  | reset =>
    cases h
    rfl
  | setPreamble x =>
    obtain ⟨hx, e⟩ | ⟨v, hx, e⟩ := exec_setPreamble_cases x s <;> cases e.symm.trans h <;>
      simp only [exec, execSetPreamble, hx] <;> rfl
  | setDualfreq x => exact absurd rfl (hdual x)
  | setTxen x =>
    obtain ⟨hx, e⟩ | ⟨v, hx, e⟩ := exec_setTxen_cases x s <;> cases e.symm.trans h <;>
      simp only [exec, execSetTxen, hx] <;> rfl
  | setRepeat m =>
    cases h
    rfl
  | read r => exact absurd rfl (hread r)
  | lookup c =>
    obtain ⟨d, hl, e⟩ | ⟨hl, e⟩ | ⟨hl, e⟩ := exec_lookup_cases c s <;> cases e.symm.trans h <;>
      simp only [exec, execLookup, show State.rom { s with dualFreq := b } = s.rom from rfl, hl] <;> rfl

/-- Settles O59: a TICK by `exec_tick_withUnread` with WPM as it is, the other commands by `exec_of_dualFreq`; TRANSMIT does
not name DUAL_FREQ. -/
theorem dualFreqOnlyDrivesOutputs : Obligations.DualFreqOnlyDrivesOutputs := by
  intro i s t b hdual hread h
  refine ⟨?_, rfl⟩
  by_cases htick : i = .tick
  · subst htick
    have hkept : t.wpm = s.wpm := by
      cases h
      exact s.countTick.evaluate_frame.wpm
    have hafter : { t with dualFreq := b } = t.withUnread b s.wpm := by rw [← hkept]; rfl
    rw [hafter]
    exact exec_tick_withUnread s b s.wpm h
  · exact exec_of_dualFreq b htick hdual hread h

end Sys2Proof.Machine
end

section
/-! SUPPORT. The command stream: what a command and a step leave waiting in it; and what a command does when it is repeated
back-to-back. -/
namespace Sys2Proof.Machine

/-- No command writes the command stream: only taking a frame from it does (20_memory.md R55). -/
theorem exec_commands {i : Instr} {s t : State} (h : exec i s = .next t) : t.commands = s.commands := by
  by_cases hi : i = .tick
  · subst hi
    cases h
    exact s.countTick.evaluate_frame.commands
  · obtain ⟨text, -, -, rfl⟩ | ⟨-, rfl⟩ | hset := exec_cases_of_ne_tick hi h
    · rfl
    · rfl
    · rw [hset.same]

/-- A step takes exactly the frame at the head of the stream, whether that is a command or not (20_memory.md R55). -/
theorem step_commands {s t : State} {c : Command} {rest : List Command} (hs : s.commands = c :: rest)
    (h : step s = .next t) : t.commands = rest := by
  cases hd : decode c.frame with
  | error e =>
    cases (step_of_decode_error hs hd).symm.trans h
    rfl
  | ok i => exact exec_commands ((step_of_decode_ok hs hd).symm.trans h)

/-- The frame at the head of the stream is the oldest of its own issuer's and none of another's. -/
theorem State.waiting_of_commands_cons {s t : State} {c : Command} (hs : s.commands = c :: t.commands) (who : Issuer) :
    s.waiting who = if who = c.issuer then c.frame :: t.waiting who else t.waiting who := by
  by_cases hwho : who = c.issuer
  · simp [State.waiting, hs, hwho]
  · simp [State.waiting, hs, hwho, Ne.symm hwho]

/-- A frame issued waits behind its own issuer's frames, and the other issuers' wait as they did. -/
theorem State.issue_waiting (s : State) (a b : Issuer) (f : List Byte) :
    (s.issue a f).waiting b = if b = a then s.waiting b ++ [f] else s.waiting b := by
  by_cases hba : b = a
  · simp [State.waiting, hba]
  · simp [State.waiting, hba, Ne.symm hba]

/-- Settles O11: a step leaves the tail of the stream, and a frame at either end is in its issuer's order alone. -/
theorem issuersKeepTheirOrder : Obligations.IssuersKeepTheirOrder := by
  refine ⟨fun s t c rest who hs h => ?_, State.issue_waiting⟩
  have htail : s.commands = c :: t.commands := hs.trans (by rw [step_commands hs h])
  have hwaiting := State.waiting_of_commands_cons htail who
  split
  next hwho => rwa [if_pos hwho] at hwaiting
  next hwho => rw [hwaiting, if_neg hwho]

/-- A command other than TICK does the same whatever the last answer was: none reads it (60_exceptions.md R175; log 3). -/
theorem exec_respond {i : Instr} (hi : i ≠ .tick) (s : State) (rc : ResultCode) (v : Word) :
    exec i (s.respond rc v) = exec i s := by
  cases i with
  | tick => exact absurd rfl hi
  | _ => rfl

/-- A command that only answers, READ and LOOKUP and every one turned away, gives the same answer again. -/
theorem exec_repeat_of_respond {i : Instr} (hi : i ≠ .tick) {s : State} {rc : ResultCode} {v : Word}
    (h : exec i s = .next (s.respond rc v)) : exec i (s.respond rc v) = .next (s.respond rc v) :=
  (exec_respond hi s rc v).trans h

/-- CONFIGURE with a valid speed (41_configure.md R95). -/
theorem exec_configure_of_quotient {w : Word} {s : State} {q : Nat} (hq : unitQuotient s.cfg.tickHz w = some q) :
    exec (.configure w) s = .next ({ s with unit := BitVec.ofNat 32 (clampUnit s.cfg q), wpm := w }.respond .ok 0#32) := by
  simp only [exec, execConfigure, hq]

/-- SET_PREAMBLE with a flag value (44_fields.md R155). -/
theorem exec_setPreamble_of_flag {b : Byte} {v : Bool} (hv : flagOperand b = some v) (s : State) :
    exec (.setPreamble b) s = .next ({ s with preambleEn := v }.respond .ok 0#32) := by
  simp only [exec, execSetPreamble, hv]

/-- SET_DUALFREQ with a flag value (44_fields.md R156). -/
theorem exec_setDualfreq_of_flag {b : Byte} {v : Bool} (hv : flagOperand b = some v) (s : State) :
    exec (.setDualfreq b) s = .next ({ s with dualFreq := v }.respond .ok 0#32) := by
  simp only [exec, execSetDualfreq, hv]

/-- SET_TXEN with a flag value (44_fields.md R157). -/
theorem exec_setTxen_of_flag {b : Byte} {v : Bool} (hv : flagOperand b = some v) (s : State) :
    exec (.setTxen b) s = .next ({ s with txEn := v }.respond .ok 0#32) := by
  simp only [exec, execSetTxen, hv]

/-- Settles O31: a command that only answers repeats its answer, and RESET or an accepted setter writes the same values
again, since nothing it reads has changed. -/
theorem repeatingGivesSameState : Obligations.RepeatingGivesSameState := by
  intro i s t htick hsend h
  cases i with
  | tick => exact absurd rfl htick
  | send text => exact absurd rfl (hsend text)
  | configure w =>
    obtain ⟨-, e⟩ | ⟨q, hq, e⟩ := exec_configure_cases w s <;> cases e.symm.trans h
    · exact exec_repeat_of_respond htick e
    · exact exec_configure_of_quotient hq
  | reset =>
    cases h
    rfl
  | setPreamble b =>
    obtain ⟨-, e⟩ | ⟨v, hv, e⟩ := exec_setPreamble_cases b s <;> cases e.symm.trans h
    · exact exec_repeat_of_respond htick e
    · exact exec_setPreamble_of_flag hv _
  | setDualfreq b =>
    obtain ⟨-, e⟩ | ⟨v, hv, e⟩ := exec_setDualfreq_cases b s <;> cases e.symm.trans h
    · exact exec_repeat_of_respond htick e
    · exact exec_setDualfreq_of_flag hv _
  | setTxen b =>
    obtain ⟨-, e⟩ | ⟨v, hv, e⟩ := exec_setTxen_cases b s <;> cases e.symm.trans h
    · exact exec_repeat_of_respond htick e
    · exact exec_setTxen_of_flag hv _
  | setRepeat m =>
    cases h
    rfl
  | read r =>
    obtain ⟨-, e⟩ | ⟨reg, -, e⟩ := exec_read_cases r s <;> cases e.symm.trans h <;>
      exact exec_repeat_of_respond htick e
  | lookup c =>
    obtain ⟨d, -, e⟩ | ⟨-, e⟩ | ⟨-, e⟩ := exec_lookup_cases c s <;> cases e.symm.trans h <;>
      exact exec_repeat_of_respond htick e

/-- Settles O1: the three cases of a step, a command, a frame that is none, and an empty stream. -/
theorem stepRunsDecodedCommand : Obligations.StepRunsDecodedCommand :=
  ⟨fun _ _ _ _ => step_of_decode_ok, fun _ _ _ _ => step_of_decode_error, fun _ => step_of_commands_nil⟩

end Sys2Proof.Machine
end

section
/-! SUPPORT. The decoder of each operand format inverted, and the decoder and the encoder as inverses of each other. -/
namespace Sys2Proof

/-- Format N takes no operand bytes (30_encoding.md R66). -/
theorem decodeN_eq_ok {i j : Instr} {body : List Byte} : decodeN i body = .ok j ↔ body = [] ∧ i = j := by
  cases body <;> simp [decodeN]

/-- Format B takes exactly one operand byte (30_encoding.md R67). -/
theorem decodeB_eq_ok {mk : Byte → Instr} {body : List Byte} {j : Instr} :
    decodeB mk body = .ok j ↔ ∃ b, body = [b] ∧ mk b = j := by
  match body with
  | [] | [_] | _ :: _ :: _ => simp [decodeB]

/-- Format W takes exactly the four bytes of a word (30_encoding.md R68). -/
theorem decodeW_eq_ok {mk : Word → Instr} {body : List Byte} {j : Instr} :
    decodeW mk body = .ok j ↔
      ∃ w, body = [byteOfWord w 0, byteOfWord w 1, byteOfWord w 2, byteOfWord w 3] ∧ mk w = j := by
  constructor
  · intro h
    match body with
    | [b0, b1, b2, b3] =>
      obtain ⟨h0, h1, h2, h3⟩ := byteOfWord_wordOfBytes b0 b1 b2 b3
      exact ⟨wordOfBytes b0 b1 b2 b3, by rw [h0, h1, h2, h3], Except.ok.inj h⟩
  · rintro ⟨w, rfl, rfl⟩
    rw [decodeW, wordOfBytes_byteOfWord]

/-- The two bytes of a length field are those that an encoder writes for it (30_encoding.md R69). -/
theorem ofNat_lengthField (lo hi : Byte) :
    BitVec.ofNat 8 (lengthField lo hi) = lo ∧ BitVec.ofNat 8 (lengthField lo hi / 256) = hi := by
  have hlo := lo.isLt
  have hhi := hi.isLt
  constructor <;> apply BitVec.eq_of_toNat_eq <;> simp only [lengthField, BitVec.toNat_ofNat] <;> omega

/-- Format S takes a text behind the two bytes that count it (30_encoding.md R69). -/
theorem decodeS_eq_ok {mk : List Byte → Instr} {body : List Byte} {j : Instr} :
    decodeS mk body = .ok j ↔ ∃ text, text.length ≤ 65535 ∧
      body = BitVec.ofNat 8 text.length :: BitVec.ofNat 8 (text.length / 256) :: text ∧ mk text = j := by
  constructor
  · intro h
    match body with
    | lo :: hi :: text =>
      rw [decodeS] at h
      split_ifs at h with hlen
      obtain ⟨hlo, hhi⟩ := ofNat_lengthField lo hi
      exact ⟨text, hlen ▸ lengthField_le lo hi, by rw [hlen, hlo, hhi], Except.ok.inj h⟩
  · rintro ⟨text, hlen, rfl, rfl⟩
    rw [decodeS, if_pos (lengthField_ofNat hlen).symm]

/-- Every well-formed command is read back from its frame. -/
theorem decode_encode {i : Instr} (hwf : i.wellFormed = true) : decode (encode i) = .ok i := by
  rw [encode, decode_of_opcode (Opcode.ofByte_byte _)]
  cases i with
  | tick | reset => exact decodeN_eq_ok.mpr ⟨rfl, rfl⟩
  | configure w => exact decodeW_eq_ok.mpr ⟨w, rfl, rfl⟩
  | send text => exact decodeS_eq_ok.mpr ⟨text, of_decide_eq_true hwf, rfl, rfl⟩
  | setPreamble b | setDualfreq b | setTxen b | setRepeat b | read b | lookup b =>
    exact decodeB_eq_ok.mpr ⟨b, rfl, rfl⟩

/-- A frame that decodes is the frame of a well-formed command. -/
theorem encode_of_decode_ok {f : List Byte} {i : Instr} (h : decode f = .ok i) :
    encode i = f ∧ i.wellFormed = true := by
  cases f with
  | nil => cases h
  | cons op body =>
    cases ho : Opcode.ofByte op with
    | none =>
      rw [decode_of_reserved ho] at h
      cases h
    | some o =>
      rw [decode_of_opcode ho] at h
      obtain rfl := Opcode.ofByte_eq_some.mp ho
      cases o with
      | tick | reset =>
        obtain ⟨rfl, rfl⟩ := decodeN_eq_ok.mp h
        exact ⟨rfl, rfl⟩
      | configure =>
        obtain ⟨w, rfl, rfl⟩ := decodeW_eq_ok.mp h
        exact ⟨rfl, rfl⟩
      | send =>
        obtain ⟨text, hlen, rfl, rfl⟩ := decodeS_eq_ok.mp h
        exact ⟨rfl, decide_eq_true hlen⟩
      | setPreamble | setDualfreq | setTxen | setRepeat | read | lookup =>
        obtain ⟨b, rfl, rfl⟩ := decodeB_eq_ok.mp h
        exact ⟨rfl, rfl⟩

/-- Settles O3: the decoder of each format reads back the operand bytes that the encoder writes in it. -/
theorem decodeOfEncode : Obligations.DecodeOfEncode := fun _ => decode_encode

/-- Settles O4: the decoder of each format accepts only the operand bytes that the encoder writes in it. -/
theorem encodeOfDecode : Obligations.EncodeOfDecode := fun _ _ => encode_of_decode_ok

/-- Settles O2: each of the frames is the encoding of its command. -/
theorem sampleFramesDecode : Obligations.SampleFramesDecode :=
  ⟨decode_encode (i := .tick) rfl, decode_encode (i := .configure 0x41A00000#32) rfl,
    decode_encode (i := .send [0x45#8, 0x54#8]) rfl, decode_encode (i := .reset) rfl,
    decode_encode (i := .setTxen 0x00#8) rfl, decode_encode (i := .setRepeat 0x1E#8) rfl,
    decode_encode (i := .read 0x04#8) rfl, decode_encode (i := .lookup 0x41#8) rfl⟩

end Sys2Proof
end

section
/-! SUPPORT. The length of a frame by its opcode, and malformed frames as those of another length (30_encoding.md R72,
R73). -/
namespace Sys2Proof

/-- A reserved opcode's frame is one byte long (60_exceptions.md R172). -/
theorem expectedLength_of_reserved {op : Byte} (h : Opcode.ofByte op = none) (body : List Byte) :
    expectedLength (op :: body) = some 1 := by
  simp [expectedLength, h]

/-- Settles O5: the ten opcodes, one by one, and the reserved bytes, which none of the conditions names. -/
theorem frameLengthByOpcode : Obligations.FrameLengthByOpcode := by
  refine ⟨rfl, fun op body => ?_⟩
  cases ho : Opcode.ofByte op with
  | none =>
    have hne : ∀ o : Opcode, op ≠ o.byte := fun o h => by simp [Opcode.ofByte_eq_some.mpr h] at ho
    have hone : ¬ (op = 0x01#8 ∨ op = 0x04#8) := not_or.mpr ⟨hne .tick, hne .reset⟩
    have hfive : op ≠ 0x02#8 := hne .configure
    have hsend : op ≠ 0x03#8 := hne .send
    have htwo : ¬ (0x05 ≤ op.toNat ∧ op.toNat ≤ 0x0A) := by
      obtain rfl | h := Opcode.ofByte_eq_none.mp ho
      · decide
      · omega
    rw [expectedLength_of_reserved ho, if_neg hone, if_neg htwo, if_neg hfive, if_neg hsend]
  | some o =>
    obtain rfl := Opcode.ofByte_eq_some.mp ho
    cases o with
    | send =>
      match body with
      | [] | [_] | _ :: _ :: _ => rfl
    | tick | configure | reset | setPreamble | setDualfreq | setTxen | setRepeat | read | lookup => rfl

/-- Format N is malformed with any operand byte. -/
theorem decodeN_eq_malformed {i : Instr} {body : List Byte} :
    decodeN i body = .error .malformed ↔ some 1 ≠ some (body.length + 1) := by
  cases body <;> simp [decodeN]

/-- Format B is malformed with any number of operand bytes but one. -/
theorem decodeB_eq_malformed {mk : Byte → Instr} {body : List Byte} :
    decodeB mk body = .error .malformed ↔ some 2 ≠ some (body.length + 1) := by
  match body with
  | [] | [_] | _ :: _ :: _ => simp [decodeB]

/-- Format W is malformed with any number of operand bytes but four. -/
theorem decodeW_eq_malformed {mk : Word → Instr} {body : List Byte} :
    decodeW mk body = .error .malformed ↔ some 5 ≠ some (body.length + 1) := by
  match body with
  | [] | [_] | [_, _] | [_, _, _] | [_, _, _, _] | _ :: _ :: _ :: _ :: _ :: _ => simp [decodeW]

/-- Format S is malformed without its length field, and with a text of another length. -/
theorem decodeS_eq_malformed {mk : List Byte → Instr} {body : List Byte} :
    decodeS mk body = .error .malformed ↔
      expectedLength (Opcode.send.byte :: body) ≠ some (body.length + 1) := by
  match body with
  | [] | [_] => simp [decodeS, expectedLength]
  | lo :: hi :: text =>
    simp only [decodeS, expectedLength, Opcode.ofByte_byte, List.length_cons, ne_eq, Option.some.injEq]
    split_ifs with hlen <;> simp <;> omega

/-- A frame is malformed exactly when its length is not that of R72 (30_encoding.md R73). -/
theorem decode_eq_malformed_iff (f : List Byte) : decode f = .error .malformed ↔ expectedLength f ≠ some f.length := by
  cases f with
  | nil => simp [decode, expectedLength]
  | cons op body =>
    cases ho : Opcode.ofByte op with
    | none =>
      rw [decode_of_reserved ho, expectedLength_of_reserved ho]
      cases body <;> simp
    | some o =>
      obtain rfl := Opcode.ofByte_eq_some.mp ho
      rw [decode_of_opcode ho, List.length_cons]
      cases o with
      | tick | reset => exact decodeN_eq_malformed
      | configure => exact decodeW_eq_malformed
      | send => exact decodeS_eq_malformed
      | setPreamble | setDualfreq | setTxen | setRepeat | read | lookup => exact decodeB_eq_malformed

/-- Settles O6: the decoder answers a wrong length with `malformed`, and a step answers that with ERR_FRAME. -/
theorem wrongLengthIsFrameError : Obligations.WrongLengthIsFrameError :=
  ⟨decode_eq_malformed_iff, fun _ c _ hs hlen =>
    Machine.step_of_decode_error hs ((decode_eq_malformed_iff c.frame).mpr hlen)⟩

end Sys2Proof
end

section
/-! SUPPORT. Element streams (30_encoding.md R78 to R81): the byte of a sequence is taken apart one element at a time,
from the packing side by arithmetic and from the reading side byte by byte. -/
namespace Sys2Proof.Machine

/-- One more place doubles the weight, as long as every element has a place. -/
theorem elementWeight_succ {es : List Element} {k : Nat} (h : es.length ≤ k + 1) :
    elementWeight (k + 1) es = 2 * elementWeight k es := by
  induction es generalizing k with
  | nil => rfl
  | cons e es ih =>
    simp only [elementWeight, Nat.add_sub_cancel]
    cases es with
    | nil => simp only [elementWeight]; ring
    | cons e' es =>
      cases k with
      | zero => simp at h
      | succ k =>
        rw [ih (Nat.le_of_succ_le_succ h), Nat.add_sub_cancel]
        ring

/-- The elements fill the places from `k` down and leave every lower place empty. -/
theorem elementWeight_add_le {es : List Element} {k : Nat} (h : es.length ≤ k + 1) :
    elementWeight k es + 2 ^ (k + 1 - es.length) ≤ 2 ^ (k + 1) := by
  induction es generalizing k with
  | nil => simp [elementWeight]
  | cons e es ih =>
    have hbit : e.bit.toNat * 2 ^ k ≤ 2 ^ k := by
      simpa using Nat.mul_le_mul_right (2 ^ k) e.bit.toNat_le
    have hrest : elementWeight (k - 1) es + 2 ^ (k - es.length) ≤ 2 ^ k := by
      cases k with
      | zero =>
        obtain rfl : es = [] := by simpa using h
        simp [elementWeight]
      | succ k => exact ih (by simpa using h)
    simp only [elementWeight, List.length_cons, Nat.add_sub_add_right, Nat.pow_succ]
    omega

/-- The elements of a byte fill its places down to the marker bit (30_encoding.md R78). -/
theorem elementWeight_seven_le {es : List Element} (h : es.length ≤ 7) :
    elementWeight 7 es + 2 * 2 ^ (7 - es.length) ≤ 256 := by
  rw [← Nat.pow_succ', ← Nat.succ_sub h]
  exact elementWeight_add_le (Nat.le_succ_of_le h)

/-- The byte of R78 as a number: it does not overflow. -/
theorem packElements_toNat {es : List Element} (h : es.length ≤ 7) :
    (packElements es).toNat = elementWeight 7 es + (2 ^ (7 - es.length) - 1) := by
  have hle := elementWeight_seven_le h
  have hpos := Nat.two_pow_pos (7 - es.length)
  rw [packElements, BitVec.toNat_ofNat, Nat.mod_eq_of_lt (by omega)]

/-- No sequence has the byte WORDSPACE (30_encoding.md R79, R80). -/
theorem packElements_ne_wordSpace {es : List Element} (h : es.length ≤ 7) : packElements es ≠ wordSpaceByte := by
  have hle := elementWeight_seven_le h
  have hpos := Nat.two_pow_pos (7 - es.length)
  intro heq
  have hnat : (packElements es).toNat = 255 := by rw [heq]; rfl
  rw [packElements_toNat h] at hnat
  omega

/-- The leading element is a dah in the upper half of the bytes (30_encoding.md R81). -/
theorem leadingElement_eq : ∀ s : Byte, leadingElement s = if 128 ≤ s.toNat then .dah else .dit := by decide

/-- A shift that brings in a 1 (30_encoding.md R81), as a number. -/
theorem consumeElement_toNat : ∀ s : Byte, (consumeElement s).toNat = (2 * s.toNat + 1) % 256 := by decide

/-- A byte is its leading element and what a shift leaves of it. -/
theorem eq_of_leadingElement_of_consumeElement {s t : Byte} (hlead : leadingElement s = leadingElement t)
    (hrest : consumeElement s = consumeElement t) : s = t := by
  have hnat := congrArg BitVec.toNat hrest
  rw [consumeElement_toNat, consumeElement_toNat] at hnat
  rw [leadingElement_eq, leadingElement_eq] at hlead
  have hs := s.isLt
  have ht := t.isLt
  apply BitVec.eq_of_toNat_eq
  split_ifs at hlead <;> omega

section Cons

variable {e : Element} {es : List Element}

/-- The byte of a sequence, shifted with a 1 brought in, is its first element's bit above the byte of the rest. -/
theorem packElements_cons_toNat (h : (e :: es).length ≤ 7) :
    2 * (packElements (e :: es)).toNat + 1 = e.bit.toNat * 256 + (packElements es).toNat := by
  have hlen : es.length ≤ 6 := Nat.le_of_succ_le_succ h
  have hpow : 2 ^ (7 - es.length) = 2 * 2 ^ (6 - es.length) := by rw [Nat.succ_sub hlen, Nat.pow_succ']
  have hpos := Nat.two_pow_pos (6 - es.length)
  have hfirst : elementWeight 7 (e :: es) = e.bit.toNat * 128 + elementWeight 6 es := rfl
  have hrest : elementWeight 7 es = 2 * elementWeight 6 es := elementWeight_succ (Nat.le_succ_of_le hlen)
  rw [packElements_toNat h, packElements_toNat (Nat.le_succ_of_le hlen), hfirst, hrest, hpow, List.length_cons,
    Nat.succ_sub_succ]
  omega

/-- The leading bit of a sequence's byte is its first element. -/
theorem leadingElement_packElements_cons (h : (e :: es).length ≤ 7) : leadingElement (packElements (e :: es)) = e := by
  have hbyte := packElements_cons_toNat h
  have hlt := (packElements es).isLt
  rw [leadingElement_eq]
  cases e with
  | dit => exact if_neg (by simp only [Element.bit, Bool.toNat_false] at hbyte; omega)
  | dah => exact if_pos (by simp only [Element.bit, Bool.toNat_true] at hbyte; omega)

/-- A shift of a sequence's byte leaves the byte of the elements after the first. -/
theorem consumeElement_packElements_cons (h : (e :: es).length ≤ 7) :
    consumeElement (packElements (e :: es)) = packElements es := by
  apply BitVec.eq_of_toNat_eq
  rw [consumeElement_toNat, packElements_cons_toNat h, Nat.mul_add_mod', Nat.mod_eq_of_lt (packElements es).isLt]

/-- A sequence with an element has a byte other than EOC: a shift of EOC leaves WORDSPACE. -/
theorem packElements_cons_ne_eoc (h : (e :: es).length ≤ 7) : packElements (e :: es) ≠ eoc := by
  intro heq
  have hrest : packElements es = wordSpaceByte := by
    rw [← consumeElement_packElements_cons h, heq]
    rfl
  exact packElements_ne_wordSpace (Nat.le_of_succ_le h) hrest

end Cons

/-- EOC is the byte of the empty sequence alone (30_encoding.md R79). -/
theorem packElements_eq_eoc_iff {es : List Element} (h : es.length ≤ 7) : packElements es = eoc ↔ es = [] := by
  cases es with
  | nil => exact iff_of_true rfl rfl
  | cons e es => exact iff_of_false (packElements_cons_ne_eoc h) (List.cons_ne_nil e es)

/-- `k` shifts drop the first `k` elements (30_encoding.md R81). -/
theorem consumeElement_iterate_packElements {es : List Element} {k : Nat} (hes : es.length ≤ 7) (hk : k ≤ es.length) :
    consumeElement^[k] (packElements es) = packElements (es.drop k) := by
  induction k generalizing es with
  | zero => rfl
  | succ k ih =>
    cases es with
    | nil => cases hk
    | cons e es =>
      rw [Function.iterate_succ_apply, consumeElement_packElements_cons hes, List.drop_succ_cons]
      exact ih (Nat.le_of_succ_le hes) (Nat.le_of_succ_le_succ hk)

/-- Settles O17: `k` shifts drop `k` elements, the first of those left leads the byte, and only no element at all is EOC. -/
theorem shiftingConsumesElements : Obligations.ShiftingConsumesElements := by
  intro es k hes hk
  have hshift := consumeElement_iterate_packElements hes hk
  have hdrop : (es.drop k).length ≤ 7 := by
    rw [List.length_drop]
    omega
  refine ⟨hshift, fun hlt => ?_, ?_⟩
  · rw [List.drop_eq_getElem_cons hlt] at hdrop ⊢
    exact leadingElement_packElements_cons hdrop
  · rw [hshift, packElements_eq_eoc_iff hdrop, List.drop_eq_nil_iff]
    omega

/-- The elements read from a byte with an element left: the leading one, then those of the shifted byte. -/
theorem elementsOf_eq_cons : ∀ s : Byte, s ≠ eoc → s ≠ wordSpaceByte →
    elementsOf s = leadingElement s :: elementsOf (consumeElement s) := by
  decide

/-- The elements of a sequence's byte are the sequence. -/
theorem elementsOf_packElements {es : List Element} (h : es.length ≤ 7) : elementsOf (packElements es) = es := by
  induction es with
  | nil => rfl
  | cons e es ih =>
    rw [elementsOf_eq_cons _ (packElements_cons_ne_eoc h) (packElements_ne_wordSpace h),
      leadingElement_packElements_cons h, consumeElement_packElements_cons h, ih (Nat.le_of_succ_le h)]

/-- No byte has more than seven elements. -/
theorem elementsOf_length_le (s : Byte) : (elementsOf s).length ≤ 7 := by
  rw [elementsOf, List.length_map, List.length_range]
  exact Nat.sub_le _ _

/-- The byte of a byte's elements is the byte, by induction on the elements read. -/
theorem packElements_elementsOf {s : Byte} (h : s ≠ wordSpaceByte) : packElements (elementsOf s) = s := by
  induction hes : elementsOf s generalizing s with
  | nil =>
    by_cases heoc : s = eoc
    · rw [heoc]
      rfl
    · rw [elementsOf_eq_cons s heoc h] at hes
      cases hes
  | cons e es ih =>
    have heoc : s ≠ eoc := by
      rintro rfl
      cases hes
    have hlen : (e :: es).length ≤ 7 := hes ▸ elementsOf_length_le s
    rw [elementsOf_eq_cons s heoc h] at hes
    obtain ⟨hlead, hrest⟩ := List.cons.inj hes
    apply eq_of_leadingElement_of_consumeElement
    · rw [leadingElement_packElements_cons hlen, hlead]
    · rw [consumeElement_packElements_cons hlen, ih (consumeElement_ne_wordSpace s h heoc) hrest]

/-- Settles O18: packing and reading are inverse to each other on the bytes and the sequences named. -/
theorem bytesAreCharacters : Obligations.BytesAreCharacters := by
  refine ⟨fun s heoc hspace => ⟨?_, elementsOf_length_le s, packElements_elementsOf hspace⟩, fun es hpos hle => ?_,
    elementsOf_length_le⟩
  · rw [elementsOf_eq_cons s heoc hspace, List.length_cons]
    exact Nat.succ_pos _
  · exact ⟨elementsOf_packElements hle, mt (packElements_eq_eoc_iff hle).mp (List.ne_nil_of_length_pos hpos),
      packElements_ne_wordSpace hle⟩

/-- Settles O19: the default ROM is a fixed table of 64 bytes, so each clause is read off it, code by code. -/
theorem defaultTableClasses : Obligations.DefaultTableClasses := ⟨by decide, by decide, by decide⟩

end Sys2Proof.Machine
end

section
/-! SUPPORT. LOOKUP (40_lookup.md): what it answers as a function of the Code Table's answer alone, and that no command
writes what the Code Table reads. -/
namespace Sys2Proof.Machine

/-- The response that stands for an answer of the Code Table (40_lookup.md R91). -/
def LookupResult.response : LookupResult → Response
  | .stream e => ⟨.ok, e.setWidth 32⟩
  | .wordSpace => ⟨.ok, 0xFF#32⟩
  | .notEncodable => ⟨.notEncodable, 0#32⟩

/-- LOOKUP answers what the Code Table does and writes nothing else (40_lookup.md R91). -/
theorem exec_lookup (c : Byte) (s : State) :
    exec (.lookup c) s = .next { s with response := some (lookupCode s.rom c).response } := by
  obtain ⟨e, hl, h⟩ | ⟨hl, h⟩ | ⟨hl, h⟩ := exec_lookup_cases c s <;> rw [h, hl] <;> rfl

/-- `lookup` reads the ROM within the supported range (30_encoding.md R82; 40_lookup.md R90). -/
theorem lookupCode_of_in_range (rom : Vector Byte 64) {c : Byte} (h : 32 ≤ c.toNat ∧ c.toNat ≤ 95) :
    lookupCode rom c =
      if rom[c.toNat - 32]'(by omega) = wordSpaceByte then .wordSpace
      else if rom[c.toNat - 32]'(by omega) = eoc then .notEncodable
      else .stream (rom[c.toNat - 32]'(by omega)) :=
  dif_pos h

/-- No command writes the parameters: they are fixed for the life of the block (00_scope.md R8). -/
theorem exec_cfg {i : Instr} {s t : State} (h : exec i s = .next t) : t.cfg = s.cfg := by
  by_cases hi : i = .tick
  · subst hi
    cases h
    exact s.countTick.evaluate_frame.cfg
  · obtain ⟨text, -, -, rfl⟩ | ⟨-, rfl⟩ | hset := exec_cases_of_ne_tick hi h
    · rfl
    · rfl
    · rw [hset.same]

/-- The code ROM is one of the parameters, so no command writes it (20_memory.md R53). -/
theorem exec_rom {i : Instr} {s t : State} (h : exec i s = .next t) : t.rom = s.rom :=
  congrArg Config.codeTable (exec_cfg h)

/-- Settles O21: `lookup` reads the ROM alone, which no command writes, and LOOKUP answers what `lookup` does. -/
theorem lookupIsUnchangedByCommands : Obligations.LookupIsUnchangedByCommands := by
  intro i s t h
  have hrom : t.rom = s.rom := exec_rom h
  refine ⟨fun c => by rw [hrom], fun c s' t' hs ht => ?_⟩
  cases (exec_lookup c s).symm.trans hs
  cases (exec_lookup c t).symm.trans ht
  rw [hrom]

/-- Settles O20: outside the supported range the ROM is not read; within it, the response follows the same two tests
of its byte as the Code Table's answer. -/
theorem lookupAnswersTableEntry : Obligations.LookupAnswersTableEntry := by
  intro s c
  rw [exec_lookup]
  by_cases hc : 32 ≤ c.toNat ∧ c.toNat ≤ 95
  · rw [dif_pos hc, lookupCode_of_in_range s.rom hc, apply_ite LookupResult.response, apply_ite LookupResult.response]
    rfl
  · rw [dif_neg hc, lookupCode_of_out_of_range s.rom hc]
    rfl

end Sys2Proof.Machine
end

section
/-! SUPPORT. CONFIGURE (41_configure.md): the unit quotient class by class and as a floor over the rationals, and what an
accepted and a rejected speed do to UNIT and WPM. -/
namespace Sys2Proof.Machine

/-! ### The unit quotient as an exact floor (R96) -/

/-- M of 41_configure.md R96: the significand of a pattern as an integer, the hidden bit of a normal one included. -/
def significand (w : Word) : Nat :=
  if (w.extractLsb' 23 8).toNat = 0 then (w.extractLsb' 0 23).toNat else (w.extractLsb' 0 23).toNat + 2 ^ 23

/-- X of 41_configure.md R96: the power of two that `significand` counts. -/
def binaryExponent (w : Word) : Int :=
  if (w.extractLsb' 23 8).toNat = 0 then -149 else ((w.extractLsb' 23 8).toNat : Int) - 150

/-- A pattern denotes M·2^X (41_configure.md R96). -/
theorem speedValue_eq_significand_mul (w : Word) : speedValue w = significand w * (2 : ℚ) ^ binaryExponent w := by
  unfold speedValue significand binaryExponent
  by_cases hsub : (w.extractLsb' 23 8).toNat = 0
  · simp only [if_pos hsub]
  · simp only [if_neg hsub, Nat.cast_add, Nat.cast_pow, Nat.cast_ofNat]

/-- M is 0 for the two zeros alone. -/
theorem significand_pos {w : Word} (h : ¬ ((w.extractLsb' 23 8).toNat = 0 ∧ (w.extractLsb' 0 23).toNat = 0)) :
    0 < significand w := by
  unfold significand
  split <;> omega

/-- A finite pattern that is not zero, its sign bit aside, denotes a positive number. -/
theorem speedValue_pos {w : Word} (h : ¬ ((w.extractLsb' 23 8).toNat = 0 ∧ (w.extractLsb' 0 23).toNat = 0)) :
    0 < speedValue w := by
  have hm : (0 : ℚ) < significand w := Nat.cast_pos.mpr (significand_pos h)
  rw [speedValue_eq_significand_mul]
  positivity

/-- NaN, every negative pattern and zero are `Invalid` (41_configure.md R96). -/
theorem unitQuotient_of_invalid (hz : Nat) {w : Word}
    (h : ((w.extractLsb' 23 8).toNat = 255 ∧ (w.extractLsb' 0 23).toNat ≠ 0) ∨ w.getLsbD 31 = true ∨
      ((w.extractLsb' 23 8).toNat = 0 ∧ (w.extractLsb' 0 23).toNat = 0)) : unitQuotient hz w = none := by
  unfold unitQuotient
  by_cases hnan : (w.extractLsb' 23 8).toNat = 255 ∧ (w.extractLsb' 0 23).toNat ≠ 0
  · exact if_pos hnan
  · by_cases hsign : w.getLsbD 31 = true
    · simp only [if_neg hnan, if_pos hsign]
    · have hzero := (h.resolve_left hnan).resolve_left hsign
      simp only [if_neg hnan, if_neg hsign, if_pos hzero]

/-- `+Inf` has quotient 0 (41_configure.md R96). -/
theorem unitQuotient_infinity (hz : Nat) : unitQuotient hz 0x7F800000#32 = some 0 := rfl

/-- A positive finite pattern has the integer quotient by M·2^X, subnormal or normal (41_configure.md R96). -/
theorem unitQuotient_of_finite (hz : Nat) {w : Word} (hsign : w.getLsbD 31 = false)
    (hfin : (w.extractLsb' 23 8).toNat < 255)
    (hne : ¬ ((w.extractLsb' 23 8).toNat = 0 ∧ (w.extractLsb' 0 23).toNat = 0)) :
    unitQuotient hz w = some (exactQuotient hz (significand w) (binaryExponent w)) := by
  have hinf : (w.extractLsb' 23 8).toNat ≠ 255 := Nat.ne_of_lt hfin
  unfold unitQuotient significand binaryExponent
  simp only [hinf, hsign, hne, false_and, if_false, Bool.false_eq_true]
  split <;> rfl

/-- The quotient by m·2^n (41_configure.md R96). -/
theorem exactQuotient_natCast (hz m n : Nat) : exactQuotient hz m (n : Int) = 6 * hz / (5 * m * 2 ^ n) :=
  if_pos (Int.natCast_nonneg n)

/-- The quotient by m·2^(-n) (41_configure.md R96). -/
theorem exactQuotient_neg_natCast (hz m n : Nat) : exactQuotient hz m (-(n : Int)) = 6 * hz * 2 ^ n / (5 * m) := by
  rcases n.eq_zero_or_pos with rfl | hn
  · simp [exactQuotient]
  · rw [exactQuotient, if_neg (by omega), neg_neg, Int.toNat_natCast]

/-- The integer quotient is the floor of the rational one: a power 2^X with X < 0 goes to the numerator (41_configure.md
R96). -/
theorem exactQuotient_eq_floor (hz m : Nat) (x : Int) :
    exactQuotient hz m x = ⌊(6 * hz / 5 : ℚ) / (m * (2 : ℚ) ^ x)⌋₊ := by
  obtain ⟨n, rfl | rfl⟩ := x.eq_nat_or_neg
  · rw [exactQuotient_natCast, ← Nat.floor_div_eq_div (K := ℚ)]
    congr 1
    push_cast
    rw [zpow_natCast, div_div, mul_assoc]
  · rw [exactQuotient_neg_natCast, ← Nat.floor_div_eq_div (K := ℚ)]
    congr 1
    push_cast
    rw [zpow_neg, zpow_natCast, ← div_eq_mul_inv, div_div_eq_mul_div, div_mul_eq_mul_div, div_div]

/-- Settles O22: the classes of `unitQuotient`, and for a positive finite pattern the floor by its value M·2^X. -/
theorem unitQuotientIsExactFloor : Obligations.UnitQuotientIsExactFloor := by
  intro hz w
  refine ⟨unitQuotient_of_invalid hz, ?_, fun hsign hfin hne => ⟨speedValue_pos hne, ?_⟩⟩
  · rintro rfl
    exact unitQuotient_infinity hz
  · rw [unitQuotient_of_finite hz hsign hfin hne, exactQuotient_eq_floor, speedValue_eq_significand_mul]

/-! ### What CONFIGURE writes (R95, R97, R101) -/

/-- CONFIGURE with an invalid speed answers and does nothing else (41_configure.md R95). -/
theorem exec_configure_of_invalid {w : Word} {s : State} (hq : unitQuotient s.cfg.tickHz w = none) :
    exec (.configure w) s = .next (s.reject .errInvalidSpeed) := by
  simp only [exec, execConfigure, hq]

/-- Settles O23: the two branches of CONFIGURE, the clamped unit fitting its register. -/
theorem configureSetsSpeed : Obligations.ConfigureSetsSpeed :=
  fun _ _ hmax =>
    ⟨fun q hq => ⟨_, clampUnit_toNat hmax q, exec_configure_of_quotient hq⟩, exec_configure_of_invalid⟩

/-- Every command leaves UNIT alone or loads an accepted unit (41_configure.md R95, R97). -/
theorem exec_unit {i : Instr} {s t : State} (h : exec i s = .next t) :
    t.unit = s.unit ∨ ∃ q, t.unit = BitVec.ofNat 32 (clampUnit s.cfg q) := by
  by_cases hi : i = .tick
  · subst hi
    cases h
    exact .inl s.countTick.evaluate_frame.unit
  · obtain ⟨text, -, -, rfl⟩ | ⟨-, rfl⟩ | hset := exec_cases_of_ne_tick hi h
    · exact .inl rfl
    · exact .inl rfl
    · exact hset.unit

/-- Settles O24: a unit is kept or is an accepted one, which is in range; and the clamp does not move a quotient that is
in range. -/
theorem unitStaysInRange : Obligations.UnitStaysInRange := by
  refine ⟨fun i s t hlegal hlow hhigh h => ?_, fun s t w q hlegal hq hone hmax h => ?_⟩
  · rw [exec_cfg h]
    obtain hunit | ⟨q, hunit⟩ := exec_unit h <;> rw [hunit]
    · exact ⟨hlow, hhigh⟩
    · exact clampUnit_range hlegal q
  · obtain ⟨-, -, ⟨-, hfits⟩, -⟩ := s.cfg.legal_iff.mp hlegal
    cases (exec_configure_of_quotient hq).symm.trans h
    calc (BitVec.ofNat 32 (clampUnit s.cfg q)).toNat
        = min (max q 1) s.cfg.unitMax := clampUnit_toNat hfits q
      _ = q := by omega

/-- READ of register 4 answers WPM (44_fields.md R163). -/
theorem exec_read_wpm (s : State) : exec (.read 4#8) s = .next (s.respond .ok s.wpm) := rfl

/-- CONFIGURE at the default parameters, with the quotient and the unit worked out (41_configure.md R100). -/
theorem exec_configure_of_default {s : State} {w u : Word} {q : Nat} (hs : s.cfg = Config.default)
    (hq : unitQuotient 1000 w = some q) (hu : BitVec.ofNat 32 (clampUnit Config.default q) = u) :
    exec (.configure w) s = .next { s with unit := u, wpm := w, response := some ⟨.ok, 0#32⟩ } := by
  have hquot : unitQuotient s.cfg.tickHz w = some q := by rw [hs]; exact hq
  rw [exec_configure_of_quotient hquot, hs, hu]
  rfl

/-- Settles O25: an accepted speed is answered OK and recorded, a rejected one is answered otherwise and writes no register;
2000.0 has quotient 0, which is clamped to 1. -/
theorem wpmRecordsOperand : Obligations.WpmRecordsOperand := by
  intro s t w h
  refine ⟨fun hok => ?_, fun hno => ?_, ?_⟩
  · obtain ⟨-, e⟩ | ⟨q, -, e⟩ := exec_configure_cases w s <;> cases e.symm.trans h
    · cases hok
    · exact ⟨rfl, exec_read_wpm _⟩
  · obtain ⟨-, e⟩ | ⟨q, -, e⟩ := exec_configure_cases w s <;> cases e.symm.trans h
    · exact ⟨rfl, rfl⟩
    · exact absurd rfl hno
  · rintro hs rfl
    have hq : unitQuotient 1000 0x44FA0000#32 = some 0 := by decide
    cases (exec_configure_of_default hs hq rfl).symm.trans h
    exact ⟨rfl, rfl⟩

/-! ### The corner speeds (R100) -/

/-- The accepted rows of a table of speeds, quotients and units at TICK_HZ = 1000: CONFIGURE does what each row says once
the row's quotient and unit are those of the rules. -/
theorem exec_configure_of_rows {rows : List (Word × Nat × Word)}
    (h : ∀ p ∈ rows, unitQuotient 1000 p.1 = some p.2.1 ∧ BitVec.ofNat 32 (clampUnit Config.default p.2.1) = p.2.2) :
    ∀ p ∈ rows, unitQuotient 1000 p.1 = some p.2.1 ∧ ∀ s : State, s.cfg = Config.default →
      exec (.configure p.1) s = .next { s with unit := p.2.2, wpm := p.1, response := some ⟨.ok, 0#32⟩ } := fun p hp =>
  have ⟨hq, hu⟩ := h p hp
  ⟨hq, fun _ hs => exec_configure_of_default hs hq hu⟩

/-- A quotient of UNIT_MAX or more is clamped to UNIT_MAX (41_configure.md R97). -/
theorem clampUnit_eq_unitMax {c : Config} {q : Nat} (h : c.unitMax ≤ q) : clampUnit c q = c.unitMax :=
  min_eq_right (h.trans (Nat.le_max_left q 1))

/-- The smallest subnormal, 2^(-149): its quotient at TICK_HZ = 1000, 1200·2^149, is past UNIT_MAX (41_configure.md R100
calls it huge). -/
theorem unitQuotient_smallest_subnormal : ∃ q, unitQuotient 1000 0x00000001#32 = some q ∧ Config.default.unitMax ≤ q := by
  have hm : significand 0x00000001#32 = 1 := rfl
  have hx : binaryExponent 0x00000001#32 = -((149 : Nat) : Int) := rfl
  refine ⟨_, unitQuotient_of_finite 1000 (by decide) (by decide) (by decide), ?_⟩
  rw [hm, hx, exactQuotient_neg_natCast]
  show 65535 ≤ 6 * 1000 * 2 ^ 149 / (5 * 1)
  norm_num

/-- The rejected rows of a table of speeds at TICK_HZ = 1000. -/
theorem exec_configure_of_invalid_rows {rows : List Word} (h : rows.all (fun w => (unitQuotient 1000 w).isNone) = true) :
    ∀ w ∈ rows, unitQuotient 1000 w = none ∧ ∀ s : State, s.cfg = Config.default →
      exec (.configure w) s = .next { s with response := some ⟨.errInvalidSpeed, 0#32⟩ } := fun w hw =>
  have hq : unitQuotient 1000 w = none := Option.isNone_iff_eq_none.mp (List.all_eq_true.mp h w hw)
  ⟨hq, fun s hs => exec_configure_of_invalid (show unitQuotient s.cfg.tickHz w = none by rw [hs]; exact hq)⟩

/-- Settles O26: each listed row by its quotient, and the smallest subnormal by a quotient that is clamped. -/
theorem cornerSpeeds : Obligations.CornerSpeeds := by
  refine ⟨exec_configure_of_rows (by decide), fun s hs => ?_, exec_configure_of_invalid_rows (by decide)⟩
  obtain ⟨q, hq, hbig⟩ := unitQuotient_smallest_subnormal
  exact exec_configure_of_default hs hq (congrArg (BitVec.ofNat 32) (clampUnit_eq_unitMax hbig))

end Sys2Proof.Machine
end

section
/-! SUPPORT. SEND and RESET (42_message.md): the stored text as the start of the delivered one, SEND within the capacity and
past it, the outputs of a block in Idle, and who writes BUF and MSG_LEN. -/
namespace Sys2Proof.Machine

/-! ### SEND (R105 to R108) -/

/-- The stored text ends where the first 0x00 stands, or where the delivered text ends (42_message.md R105, R107). -/
theorem storedText_eq_take (text : List Byte) : storedText text = text.take (text.findIdx (· == 0#8)) := by
  have hzero : (fun b : Byte => !decide (b ≠ 0#8)) = (· == 0#8) := by
    funext b
    simp [Bool.beq_eq_decide_eq]
  rw [storedText, List.takeWhile_eq_take_findIdx_not, hzero]

/-- So MSG_LEN is the place of the first 0x00 (42_message.md R105). -/
theorem storedText_length (text : List Byte) : (storedText text).length = text.findIdx (· == 0#8) := by
  rw [storedText_eq_take, List.length_take, Nat.min_eq_left List.findIdx_le_length]

/-- BUF read after a SEND: the text up to its first 0x00, and past it what was there before (42_message.md R105; log 4). -/
theorem Memory.read_writeFrom_storedText (m : Memory) (text : List Byte) (i : Nat) :
    (m.writeFrom 0 (storedText text)).read i = if i < text.findIdx (· == 0#8) then text[i]? else m.read i := by
  rw [Memory.read_writeFrom, storedText_length, Nat.zero_add, Nat.sub_zero]
  by_cases hi : i < text.findIdx (· == 0#8)
  · rw [if_pos ⟨i.zero_le, hi⟩, if_pos hi, storedText_eq_take, List.getElem?_take, if_pos hi]
  · rw [if_neg fun h => hi h.2, if_neg hi]

/-- SEND with a text within the capacity (42_message.md R105). -/
theorem exec_send_of_length_le {text : List Byte} {s : State} (h : text.length ≤ s.cfg.msgCap) :
    exec (.send text) s = .next (({ s with buf := s.buf.writeFrom 0 (storedText text) }.rewind
      (BitVec.ofNat 16 (storedText text).length) true).respond .ok 0#32) := by
  obtain ⟨hlong, -⟩ | ⟨-, e⟩ := exec_send_cases text s
  · exact absurd h hlong.not_ge
  · exact e

/-- SEND with a text over the capacity (42_message.md R108). -/
theorem exec_send_of_msgCap_lt {text : List Byte} {s : State} (h : s.cfg.msgCap < text.length) :
    exec (.send text) s = .next (s.reject .errTooLong) := by
  obtain ⟨-, e⟩ | ⟨hfits, -⟩ := exec_send_cases text s
  · exact e
  · exact absurd hfits h.not_ge

/-- Settles O27: the buffer reads back the stored text, whose length, at most MSG_CAP, MSG_LEN holds in full. -/
theorem sendStoresMessage : Obligations.SendStoresMessage := by
  intro s text hcap hlen
  refine ⟨_, exec_send_of_length_le hlen, ?_, Memory.read_writeFrom_storedText s.buf text, rfl⟩
  have hstored : (storedText text).length < 2 ^ 16 := by
    have := storedText_length_le text
    omega
  calc (BitVec.ofNat 16 (storedText text).length).toNat
      = (storedText text).length := by rw [BitVec.toNat_ofNat, Nat.mod_eq_of_lt hstored]
    _ = text.findIdx (· == 0#8) := storedText_length text

/-- Settles O28: the rejection is an answer alone. -/
theorem sendTooLongChangesNothing : Obligations.SendTooLongChangesNothing := fun _ _ => exec_send_of_msgCap_lt

/-! ### The outputs of a rewound block (R106, R110) -/

/-- In Idle the key is up, and in dual-frequency mode the lines follow BUSY (43_tick.md R145, R146). -/
theorem State.outputs_of_idle {s : State} (h : s.state = .idle) :
    s.transmit = false ∧ s.txOut = (s.dualFreq && (s.busy && s.txEn)) ∧ s.indOut = (s.dualFreq && s.busy) := by
  have hkey : s.transmit = false := by simp [State.transmit, h, KeyerState.keyDown]
  cases hdual : s.dualFreq <;> simp [State.txOut, State.indOut, hdual, hkey, h]

/-- Settles O29: an accepted SEND leaves the block busy in Idle. -/
theorem sendReleasesKeyAtOnce : Obligations.SendReleasesKeyAtOnce := by
  intro s t text hlen h
  obtain ⟨hidle, hbusy⟩ : t.state = .idle ∧ t.busy = true := by
    cases (exec_send_of_length_le hlen).symm.trans h
    exact ⟨rfl, rfl⟩
  obtain ⟨htransmit, htxOut, hindOut⟩ := State.outputs_of_idle hidle
  rw [hbusy, Bool.true_and] at htxOut
  rw [hbusy, Bool.and_true] at hindOut
  exact ⟨by rw [hidle]; rfl, htransmit, htxOut, hindOut⟩

/-- Settles O30: RESET leaves the block in Idle and not busy, where every line is 0. -/
theorem resetPutsAtRest : Obligations.ResetPutsAtRest := by
  intro s
  refine ⟨_, exec_reset s, rfl, ?_⟩
  simpa using State.outputs_of_idle (s := (s.rewind 0#16 false).respond .ok 0#32) rfl

/-! ### Who writes BUF and MSG_LEN (R114, R52) -/

/-- A command keeps BUF, or is an accepted SEND (20_memory.md R52). -/
theorem exec_buf {i : Instr} {s t : State} (h : exec i s = .next t) :
    t.buf = s.buf ∨ ∃ text, i = .send text ∧ text.length ≤ s.cfg.msgCap := by
  by_cases hi : i = .tick
  · subst hi
    cases h
    exact .inl s.countTick.evaluate_frame.buf
  · obtain ⟨text, hsend, hlen, -⟩ | ⟨-, rfl⟩ | hset := exec_cases_of_ne_tick hi h
    · exact .inr ⟨text, hsend, hlen⟩
    · exact .inl rfl
    · exact .inl (by rw [hset.same])

/-- A TICK keeps MSG_LEN, or ends the delay after the message and with it the message (43_tick.md R134). -/
theorem exec_tick_msgLen {s t : State} (h : exec .tick s = .next t) :
    t.msgLen = s.msgLen ∨ (s.state = .endOfMessageDelay ∧ t.state = .idle ∧ t.msgLen = 0#16) := by
  cases h
  obtain ⟨hstate, -, e⟩ | hframe := s.countTick.evaluate_messageFrame
  · rw [e]
    exact .inr ⟨hstate, rfl, rfl⟩
  · exact .inl hframe.msgLen

/-- A command other than TICK keeps MSG_LEN, or is an accepted SEND or RESET (42_message.md R114). -/
theorem exec_msgLen_of_ne_tick {i : Instr} {s t : State} (hi : i ≠ .tick) (h : exec i s = .next t) :
    t.msgLen = s.msgLen ∨ (∃ text, i = .send text ∧ text.length ≤ s.cfg.msgCap) ∨ i = .reset := by
  obtain ⟨text, hsend, hlen, -⟩ | ⟨hreset, -⟩ | hset := exec_cases_of_ne_tick hi h
  · exact .inr (.inl ⟨text, hsend, hlen⟩)
  · exact .inr (.inr hreset)
  · exact .inl (by rw [hset.same])

/-- Settles O32: BUF by `exec_buf`; MSG_LEN apart for a TICK and for the other commands. -/
theorem messageWriters : Obligations.MessageWriters := by
  intro i s t h
  refine ⟨(exec_buf h).resolve_left, fun hne => ?_⟩
  by_cases hi : i = .tick
  · subst hi
    exact .inr (.inr ⟨rfl, (exec_tick_msgLen h).resolve_left hne⟩)
  · obtain hsend | hreset := (exec_msgLen_of_ne_tick hi h).resolve_left hne
    · exact .inl hsend
    · exact .inr (.inl hreset)

end Sys2Proof.Machine
end

section
/-! SUPPORT. The parts of a TICK as equations: when it holds, decides or exits (43_tick.md R115, R117, R121), and what a
decision, an element and an exit make of the state, written out field by field. -/
namespace Sys2Proof.Machine

variable {s : State}

/-! ### A TICK by what it evaluates -/

theorem runTicks_one (s : State) : runTicks 1 s = exec .tick s := rfl

/-- A TICK that holds: in Idle with nothing to send or muted, or in a timed state not expired (43_tick.md R117, R121). -/
theorem exec_tick_of_held
    (h : (s.state = .idle ∧ ¬ (s.busy = true ∧ s.txEn = true)) ∨ (s.state ≠ .idle ∧ s.countTick.expired = false)) :
    exec .tick s = .next (s.countTick.respond .ok 0#32) := by
  rw [exec_tick]
  obtain ⟨hidle, hheld⟩ | ⟨hstate, hexpired⟩ := h
  · simp [State.evaluate, hidle, hheld]
  · simp [State.evaluate, hstate, hexpired]

/-- A TICK in Idle with a message in flight and the transmitter enabled decides (43_tick.md R117). -/
theorem exec_tick_of_decision (hidle : s.state = .idle) (hbusy : s.busy = true) (htx : s.txEn = true) :
    exec .tick s = .next (s.countTick.decideNext.respond .ok 0#32) := by
  simp [exec_tick, State.evaluate, hidle, hbusy, htx]

/-- A TICK past the deadline of a timed state exits it (43_tick.md R115, R121). -/
theorem exec_tick_of_expired (hstate : s.state ≠ .idle) (hexpired : s.countTick.expired = true) :
    exec .tick s = .next (s.countTick.exitTimed.respond .ok 0#32) := by
  simp [exec_tick, State.evaluate, hstate, hexpired]

/-! ### Decisions (R123 to R125, R131) -/

/-- The end of the buffer, as one entry (43_tick.md R131). -/
theorem State.endOfMessage_eq (s : State) :
    s.endOfMessage = s.enter (if s.repeatMin = 0#8 then .endOfMessageDelay else .messageRepeatDelay)
      (if s.repeatMin = 0#8 then 7 * s.unit.toNat else s.repeatDuration) := by
  obtain ⟨h, e⟩ | ⟨h, e⟩ := s.endOfMessage_cases <;> simp [e, h]

/-- The leading element keyed, by its bit (43_tick.md R125). -/
theorem State.element_eq (s : State) :
    s.element = { s with
      state := if s.stream.getLsbD 7 then .dah else .dit,
      endTick := addN s.cfg.tickW s.tick ((if s.stream.getLsbD 7 then 3 * s.unit.toNat else s.unit.toNat) - 1),
      stream := (s.stream <<< 1) ||| 1#8 } := by
  cases h : s.stream.getLsbD 7 <;> simp only [State.element, leadingElement, h] <;> rfl

/-- A decision with an element left keys it (43_tick.md R123). -/
theorem State.decideNext_of_element_left (hstarted : s.started = true) (hstream : s.stream ≠ eoc) :
    s.decideNext = s.element := by
  simp [State.decideNext, hstarted, hstream]

/-- A decision with no element left, or the first of a pass without a preamble, fetches within the pass (43_tick.md R123). -/
theorem State.decideNext_of_fetch
    (h : s.started = true ∧ s.stream = eoc ∨ s.started = false ∧ s.preambleEn = false) :
    s.decideNext = State.fetch { s with started := true } := by
  obtain ⟨hstarted, hstream⟩ | ⟨hstarted, hpreamble⟩ := h
  · have hsame : { s with started := true } = s := by rw [← hstarted]
    rw [hsame, State.decideNext, if_pos hstarted, if_pos hstream]
  · simp [State.decideNext, hstarted, hpreamble]

/-- A byte of the message, below its end (10_state.md R37). -/
theorem State.bufByte_of_read {i : Nat} {b : Byte} (hi : i < s.msgLen.toNat) (hread : s.buf.read i = some b) :
    s.bufByte i = b := by
  simp [State.bufByte, hi, hread]

/-- What `fetch` makes of the character at CURSOR, by its class (43_tick.md R124). -/
theorem State.fetch_of_read {b : Byte} (hplace : s.cursor.toNat < s.msgLen.toNat)
    (hread : s.buf.read s.cursor.toNat = some b) :
    (lookupCode s.rom b = .wordSpace →
      s.fetch = { s with cursor := s.cursor + 1#16, stream := eoc }.enter .wordGap (7 * s.unit.toNat)) ∧
    (lookupCode s.rom b = .notEncodable →
      s.fetch = { s with cursor := s.cursor + 1#16, stream := eoc, state := .idle }) ∧
    (∀ e, lookupCode s.rom b = .stream e → s.fetch = { s with stream := e }.element) := by
  have hbyte := State.bufByte_of_read hplace hread
  have hne := BitVec.ne_of_lt hplace
  refine ⟨fun hl => ?_, fun hl => ?_, fun e hl => ?_⟩ <;> simp [State.fetch, hne, hbyte, hl]

/-! ### Exits (R122, R126 to R136) -/

/-- The trailing gap of an element (43_tick.md R126). -/
def gapAfter (S : KeyerState) : KeyerState := if S = .dit then .ditDelay else .dahDelay

theorem gapAfter_eq (S : KeyerState) : gapAfter S = .ditDelay ∨ gapAfter S = .dahDelay := by
  unfold gapAfter
  split <;> simp

/-- The exit of an element with another left: its trailing gap (43_tick.md R126). -/
theorem State.exitTimed_of_element_left (hkeyed : s.state = .dit ∨ s.state = .dah) (hstream : s.stream ≠ eoc) :
    s.exitTimed = s.enter (gapAfter s.state) s.unit.toNat := by
  obtain hk | hk := hkeyed <;> simp [State.exitTimed, hk, gapAfter, State.exitElement, hstream]

/-- The character in hand counted and passed (43_tick.md R127). -/
def State.passCharacter (s : State) : State :=
  { s with charsSent := s.charsSent + 1#16, cursor := s.cursor + 1#16 }

/-- The exit of the last element of a character: the character is counted and passed (43_tick.md R127). -/
theorem State.exitTimed_of_last_element (hkeyed : s.state = .dit ∨ s.state = .dah) (hstream : s.stream = eoc) :
    s.exitTimed = s.passCharacter.afterCharacter := by
  obtain hk | hk := hkeyed <;> simp [State.exitTimed, hk, State.exitElement, hstream, State.passCharacter]

/-- The exit of a gap is a decision point (43_tick.md R128, R130). -/
theorem State.exitTimed_of_gap
    (hgap : s.state = .ditDelay ∨ s.state = .dahDelay ∨ s.state = .charGap ∨ s.state = .wordGap) :
    s.exitTimed = s.continueNext := by
  obtain hk | hk | hk | hk := hgap <;> simp [State.exitTimed, hk]

/-- What follows a character, by the byte after it (43_tick.md R127). -/
theorem State.afterCharacter_of_read {b : Byte} (hplace : s.cursor.toNat < s.msgLen.toNat)
    (hread : s.buf.read s.cursor.toNat = some b) :
    (lookupCode s.rom b = .wordSpace →
      s.afterCharacter = { s with cursor := s.cursor + 1#16 }.enter .wordGap (7 * s.unit.toNat)) ∧
    (lookupCode s.rom b ≠ .wordSpace → s.afterCharacter = s.enter .charGap (3 * s.unit.toNat)) := by
  rw [← State.bufByte_of_read hplace hread]
  obtain ⟨hend, -⟩ | ⟨-, hspace, e⟩ | ⟨-, hspace, e⟩ := s.afterCharacter_cases
  · exact absurd hend (BitVec.ne_of_lt hplace)
  · exact ⟨fun _ => e, absurd hspace⟩
  · exact ⟨fun h => absurd h hspace, fun _ => e⟩

/-! ### A decision does not read STATE: the end of a gap is Idle's evaluation (R117, R122) -/

theorem State.endOfMessage_withState (k : KeyerState) : State.endOfMessage { s with state := k } = s.endOfMessage := by
  rw [State.endOfMessage_eq, State.endOfMessage_eq]
  rfl

theorem State.element_withState (k : KeyerState) : State.element { s with state := k } = s.element := by
  rw [State.element_eq, State.element_eq]

theorem State.rom_withState (k : KeyerState) : State.rom { s with state := k } = s.rom := rfl

theorem State.bufByte_withState (k : KeyerState) (i : Nat) : State.bufByte { s with state := k } i = s.bufByte i := rfl

theorem State.fetch_withState (k : KeyerState) : State.fetch { s with state := k } = s.fetch := by
  by_cases hend : s.cursor = s.msgLen
  · rw [show s.fetch = s.endOfMessage from if_pos hend, ← State.endOfMessage_withState k]
    exact if_pos hend
  · unfold State.fetch
    simp only [hend, if_false, State.rom_withState, State.bufByte_withState]
    cases lookupCode s.rom (s.bufByte s.cursor.toNat) with
    | wordSpace => rfl
    | notEncodable => rfl
    | stream e => exact State.element_withState (s := { s with stream := e }) k

theorem State.decideNext_withState (k : KeyerState) : State.decideNext { s with state := k } = s.decideNext := by
  unfold State.decideNext
  rw [State.fetch_withState, State.element_withState, State.fetch_withState (s := { s with started := true })]
  rfl

/-- `continue` of a message in flight is the evaluation that Idle makes: the decision, or the hold while the transmitter is
disabled (43_tick.md R117, R122). -/
theorem State.continueNext_eq_evaluate (hbusy : s.busy = true) :
    s.continueNext = State.evaluate { s with state := .idle } := by
  obtain ⟨htx, e⟩ | ⟨htx, e⟩ := s.continueNext_cases
  · rw [e, ← State.decideNext_withState .idle]
    simp [State.evaluate, hbusy, htx]
  · simp [e, State.evaluate, htx]

/-- A TICK past the deadline of a state whose exit is the decision point of `t` does what it does in Idle at `t`. -/
theorem exec_tick_of_exit_continue {t : State} (hstate : s.state ≠ .idle) (hexpired : s.countTick.expired = true)
    (hbusy : t.busy = true) (hexit : s.countTick.exitTimed = t.countTick.continueNext) :
    exec .tick s = exec .tick { t with state := .idle } := by
  rw [exec_tick_of_expired hstate hexpired, hexit, State.continueNext_eq_evaluate (s := t.countTick) hbusy]
  rfl

end Sys2Proof.Machine
end

section
/-! SUPPORT. The statements about one TICK: holding, deciding, and the exit of each timed state (43_tick.md R117 to R136,
R152), and the output equations (R145, R146). -/
namespace Sys2Proof.Machine

/-! ### Holding and outputs -/

/-- Settles O43: the hypothesis is that of `exec_tick_of_held`, with `expired` written out. -/
theorem tickHoldsState : Obligations.TickHoldsState := by
  intro s h
  refine exec_tick_of_held (h.imp_right fun ⟨hstate, hahead⟩ => ⟨hstate, ?_⟩)
  exact Bool.eq_false_iff.mpr fun hexpired => hahead ((State.expired_iff _).mp hexpired)

/-- Settles O42: at rest the block is in Idle, where a TICK without a message holds. -/
theorem tickAtRestOnlyCounts : Obligations.TickAtRestOnlyCounts := by
  intro s hinv hrest
  obtain ⟨-, hidleAtRest, -⟩ := s.inv_iff.mp hinv
  obtain ⟨hidle, -⟩ := hidleAtRest hrest
  have hheld : ¬ (s.busy = true ∧ s.txEn = true) := fun ⟨hbusy, _⟩ => absurd (hrest.symm.trans hbusy) nofun
  have hzero {t : State} (ht : t.state = .idle) (hb : t.busy = false) :
      t.transmit = false ∧ t.txOut = false ∧ t.indOut = false := by
    simpa [hb] using State.outputs_of_idle ht
  obtain ⟨h1, h2, h3⟩ := hzero hidle hrest
  exact ⟨_, exec_tick_of_held (.inl ⟨hidle, hheld⟩), rfl, h1, h2, h3, hzero hidle hrest⟩

/-- KEY_DOWN state by state (43_tick.md R145). -/
theorem KeyerState.keyDown_iff (k : KeyerState) : k.keyDown = true ↔ k = .preamble ∨ k = .dit ∨ k = .dah := by
  cases k <;> decide

/-- Settles O57: the lines in each keying mode. -/
theorem outputEquations : Obligations.OutputEquations := by
  intro s
  refine ⟨s.state.keyDown_iff, by simp [State.transmit], fun hsingle => ?_, fun hdual => ?_⟩
  · simp [State.txOut, State.indOut, hsingle]
  · simp [State.txOut, State.indOut, hdual, and_assoc]

/-! ### Decisions from Idle -/

/-- Settles O44: the first decision of a pass with the flag set. -/
theorem preambleBeginsPass : Obligations.PreambleBeginsPass := by
  intro s hidle hbusy htx hstarted hpreamble
  rw [exec_tick_of_decision hidle hbusy htx]
  simp [State.decideNext, hstarted, hpreamble, State.enter, State.respond, State.countTick]

/-- Settles O45: a decision with an element left is `element`. -/
theorem decisionKeysNextElement : Obligations.DecisionKeysNextElement := by
  intro s hidle hbusy htx hstarted hstream
  rw [exec_tick_of_decision hidle hbusy htx, State.decideNext_of_element_left (s := s.countTick) hstarted hstream,
    State.element_eq]
  rfl

/-- Settles O47: a decision with no element left fetches, at the end of the buffer the end of the message. -/
theorem endOfBufferEntersDelay : Obligations.EndOfBufferEntersDelay := by
  intro s hidle hbusy htx hfetch hend
  have hends : State.fetch { s.countTick with started := true } = State.endOfMessage { s.countTick with started := true } :=
    if_pos hend
  rw [exec_tick_of_decision hidle hbusy htx, State.decideNext_of_fetch (s := s.countTick) hfetch, hends,
    State.endOfMessage_eq]
  rfl

/-- Settles O46: a decision with no element left fetches, by the class of the character. -/
theorem decisionFetchesCharacter : Obligations.DecisionFetchesCharacter := by
  intro s b hidle hbusy htx hfetch hplace hread
  obtain ⟨hspace, hskip, hkey⟩ := State.fetch_of_read (s := { s.countTick with started := true }) hplace hread
  rw [exec_tick_of_decision hidle hbusy htx, State.decideNext_of_fetch (s := s.countTick) hfetch]
  cases hl : lookupCode s.rom b with
  | wordSpace => rw [hspace hl]; rfl
  | notEncodable => rw [hskip hl, ← hidle]; rfl
  | stream e => rw [hkey e hl, State.element_eq]; rfl

/-! ### Exits of timed states -/

/-- Dit and Dah are timed states. -/
theorem ne_idle_of_keyed {k : KeyerState} (h : k = .dit ∨ k = .dah) : k ≠ .idle := by
  obtain rfl | rfl := h <;> nofun

/-- Settles O48: the exit of an element with another left. -/
theorem elementIsFollowedByGap : Obligations.ElementIsFollowedByGap := by
  intro s hkeyed hstream hexpired
  rw [exec_tick_of_expired (ne_idle_of_keyed hkeyed) hexpired,
    State.exitTimed_of_element_left (s := s.countTick) hkeyed hstream]
  rfl

/-- Settles O49: the character passed, its place is before the end of the buffer unless it is that end. -/
theorem lastElementEndsCharacter : Obligations.LastElementEndsCharacter := by
  intro s hkeyed hstream hplace hexpired
  have hnext : s.countTick.passCharacter.cursor.toNat = s.cursor.toNat + 1 := half_succ_toNat hplace
  have hafter {b : Byte} (hne : s.cursor + 1#16 ≠ s.msgLen) (hread : s.buf.read (s.cursor.toNat + 1) = some b) :=
    State.afterCharacter_of_read (s := s.countTick.passCharacter) (b := b)
      (hnext ▸ lt_of_le_of_ne hplace fun h => hne (BitVec.eq_of_toNat_eq (hnext.trans h))) (hnext ▸ hread)
  rw [exec_tick_of_expired (ne_idle_of_keyed hkeyed) hexpired,
    State.exitTimed_of_last_element (s := s.countTick) hkeyed hstream]
  refine ⟨fun hend => ?_, fun b hne hread hspace => ?_, fun b hne hread hspace => ?_⟩
  · have hends : s.countTick.passCharacter.afterCharacter = s.countTick.passCharacter.endOfMessage := if_pos hend
    rw [hends, State.endOfMessage_eq]
    rfl
  · obtain ⟨hgap, -⟩ := hafter hne hread
    rw [hgap hspace, show s.cursor + 2#16 = s.cursor + 1#16 + 1#16 by rw [BitVec.add_assoc]; rfl]
    rfl
  · obtain ⟨-, hgap⟩ := hafter hne hread
    rw [hgap hspace]
    rfl

/-- Settles O50: the exit of a gap is a decision point. -/
theorem gapContinuesThroughIdle : Obligations.GapContinuesThroughIdle := by
  intro s hgap hbusy hexpired
  have hstate : s.state ≠ .idle := by obtain h | h | h | h := hgap <;> rw [h] <;> nofun
  exact exec_tick_of_exit_continue hstate hexpired hbusy (State.exitTimed_of_gap hgap)

/-- Settles O51: the flag cleared, the exit of Preamble is a decision point. -/
theorem preambleClearsItsFlag : Obligations.PreambleClearsItsFlag := by
  intro s hstate hbusy hexpired
  have hexit : s.countTick.exitTimed = s.countTick.exitPreamble := by simp [State.exitTimed, hstate]
  exact exec_tick_of_exit_continue (t := { s with preambleEn := false }) (hstate ▸ nofun) hexpired hbusy hexit

/-- Settles O53: the position put back, the exit of the repeat delay is a decision point. -/
theorem repeatDelayStartsNextPass : Obligations.RepeatDelayStartsNextPass := by
  intro s hstate hbusy hexpired
  have hexit : s.countTick.exitTimed = s.countTick.exitRepeat := by simp [State.exitTimed, hstate]
  exact exec_tick_of_exit_continue (t := { s with cursor := 0#16, charsSent := 0#16, stream := eoc, started := false })
    (hstate ▸ nofun) hexpired hbusy hexit

/-- Settles O52: the exit rewinds an empty, idle block. -/
theorem endOfMessageDelayEndsMessage : Obligations.EndOfMessageDelayEndsMessage := by
  intro s hstate hexpired
  have hexit : s.countTick.exitTimed = s.countTick.exitEndOfMessage := by simp [State.exitTimed, hstate]
  rw [exec_tick_of_expired (hstate ▸ nofun) hexpired, hexit]
  rfl

end Sys2Proof.Machine
end

section
/-! SUPPORT. Timed states over runs of TICKs (43_tick.md R138): the ticks that only count, the tick of the exit, and the
timelines of an element and of the end of a message (R140, R143). -/
namespace Sys2Proof.Machine

/-! ### A timed state lasts its duration -/

/-- `s` after `k` TICKs that only count. -/
def State.elapse (s : State) (k : Nat) : State :=
  { s with tick := addN s.cfg.tickW s.tick k, response := if k = 0 then s.response else some ⟨.ok, 0#32⟩ }

theorem State.elapse_zero {s : State} (hn : s.cfg.tickW ≤ 64) (htick : s.tick.toNat < 2 ^ s.cfg.tickW) :
    s.elapse 0 = s := by
  simp [State.elapse, addN_zero hn htick]

/-- The tick counted after `k` of them. -/
theorem State.elapse_countTick_tick {s : State} (hn : s.cfg.tickW ≤ 64) (k : Nat) :
    (s.elapse k).countTick.tick = addN s.cfg.tickW s.tick (k + 1) := addN_addN hn _ _ _

theorem State.elapse_succ {s : State} (hn : s.cfg.tickW ≤ 64) (k : Nat) :
    (s.elapse k).countTick.respond .ok 0#32 = s.elapse (k + 1) := by
  simp [State.respond, State.countTick, State.elapse, addN_addN hn]

/-- A duration that the counter of `s` can time (00_scope.md R8; 43_tick.md R118). -/
structure State.CanTime (s : State) (d : Nat) : Prop where
  width_pos : 1 ≤ s.cfg.tickW
  width_le : s.cfg.tickW ≤ 64
  tick_lt : s.tick.toNat < 2 ^ s.cfg.tickW
  pos : 1 ≤ d
  lt_half : d < 2 ^ (s.cfg.tickW - 1)

section
variable {s : State} {S : KeyerState} {d : Nat} (h : s.CanTime d) (hS : S ≠ .idle)
include h

/-- In the next TICK the state is expired exactly if it was in its last tick (43_tick.md R119). -/
theorem State.CanTime.expired_elapse {k : Nat} (hk : k < d) :
    ((s.enter S d).elapse k).countTick.expired = decide (k + 1 = d) :=
  State.expired_of_entered (x := s.tick) (State.elapse_countTick_tick h.width_le k) rfl h.width_pos h.width_le h.pos
    h.lt_half hk

/-- What the tick of the exit has counted, `d` ticks after the entry. -/
theorem State.CanTime.elapse_exit :
    ((s.enter S d).elapse (d - 1)).countTick.respond .ok 0#32 = (s.enter S d).elapse d := by
  rw [State.elapse_succ (s := s.enter S d) h.width_le, Nat.sub_add_cancel h.pos]

include hS

/-- A state entered for `d` ticks holds through the next `d − 1` (43_tick.md R138). -/
theorem State.CanTime.runTicks_enter {k : Nat} (hk : k < d) :
    runTicks k (s.enter S d) = .next ((s.enter S d).elapse k) := by
  induction k with
  | zero =>
    rw [State.elapse_zero (s := s.enter S d) h.width_le h.tick_lt]
    rfl
  | succ k ih =>
    have hheld : ((s.enter S d).elapse k).countTick.expired = false := by
      rw [h.expired_elapse (by omega)]
      exact decide_eq_false (by omega)
    rw [runTicks_add 1 (ih (by omega)), runTicks_one, exec_tick_of_held (.inr ⟨hS, hheld⟩),
      State.elapse_succ (s := s.enter S d) h.width_le]

/-- The `d`-th TICK after the entry exits (43_tick.md R138). -/
theorem State.CanTime.runTicks_exit :
    runTicks d (s.enter S d) = .next (((s.enter S d).elapse (d - 1)).countTick.exitTimed.respond .ok 0#32) := by
  obtain ⟨k, rfl⟩ : ∃ k, d = k + 1 := ⟨d - 1, by have := h.pos; omega⟩
  have hexpired := h.expired_elapse (S := S) (Nat.lt_succ_self k)
  rw [runTicks_add 1 (h.runTicks_enter hS (Nat.lt_succ_self k)), runTicks_one,
    exec_tick_of_expired hS (hexpired.trans (decide_eq_true rfl)), Nat.add_sub_cancel]

end

/-- Settles O54: the ticks that hold and the tick of the exit. -/
theorem timedStateLastsItsDuration : Obligations.TimedStateLastsItsDuration := by
  intro s S d k hlo hhi htick hS hpos hhalf
  have htime : s.CanTime d := ⟨by omega, hhi, htick, hpos, hhalf⟩
  refine ⟨htime.runTicks_enter hS, ?_⟩
  have hlast : ((s.enter S d).elapse (d - 1)).countTick = { s.enter S d with
      tick := addN s.cfg.tickW s.tick d, response := if d = 1 then s.response else some ⟨.ok, 0#32⟩ } := by
    obtain ⟨k, rfl⟩ : ∃ k, d = k + 1 := ⟨d - 1, by omega⟩
    simp [State.countTick, State.elapse, addN_addN hhi]
  rw [htime.runTicks_exit hS, hlast]

/-! ### The timelines of R140 and R143 -/

/-- Every duration up to the longest can be timed (00_scope.md R8). -/
theorem State.Regular.canTime {s : State} (h : s.Regular) {d : Nat} (hpos : 1 ≤ d) (hle : d ≤ s.cfg.longest) :
    s.CanTime d :=
  have ⟨hlo, hhi, hlong⟩ := h.tickW_bounds
  ⟨by omega, hhi, h.tick_lt, hpos, by omega⟩

/-- Up to seven units can be timed. -/
theorem State.Regular.canTime_units {s : State} (h : s.Regular) {n : Nat} (hpos : 1 ≤ n) (hle : n ≤ 7) :
    s.CanTime (n * s.unit.toNat) := by
  obtain ⟨-, -, -, hlow, hhigh⟩ := h.counts
  exact h.canTime (Nat.mul_pos hpos hlow) ((Nat.mul_le_mul hle hhigh).trans (Nat.le_max_left _ _))

/-- The TICK after a state's last tick finds it expired (43_tick.md R119). -/
theorem State.Regular.expired_countTick {s : State} (h : s.Regular) (hnow : s.tick = s.endTick) :
    s.countTick.expired = true := by
  obtain ⟨hlo, hhi, -⟩ := h.tickW_bounds
  have hend : s.endTick = addN s.cfg.tickW s.tick 0 := hnow ▸ (addN_zero hhi h.tick_lt).symm
  have hhalf : 1 < 2 ^ (s.cfg.tickW - 1) := Nat.one_lt_two_pow (by omega)
  exact State.expired_of_entered (s := s.countTick) (d := 1) (k := 1) rfl hend (show 1 ≤ s.cfg.tickW by omega) hhi
    (le_refl 1) hhalf (le_refl 1)

/-- The end of the last element of a message sent once: the delay of seven units is entered (43_tick.md R127, R131). -/
theorem runTicks_one_of_message_end {s : State} (hkeyed : s.state = .dit ∨ s.state = .dah) (hstream : s.stream = eoc)
    (hexpired : s.countTick.expired = true) (hend : s.cursor + 1#16 = s.msgLen) (hrepeat : s.repeatMin = 0#8) :
    runTicks 1 s =
      .next ((s.countTick.passCharacter.respond .ok 0#32).enter .endOfMessageDelay (7 * s.unit.toNat)) := by
  have hends : s.countTick.passCharacter.afterCharacter = s.countTick.passCharacter.endOfMessage := if_pos hend
  have hdelay : s.countTick.passCharacter.endOfMessage =
      s.countTick.passCharacter.enter .endOfMessageDelay (7 * s.unit.toNat) := if_pos hrepeat
  rw [runTicks_one, exec_tick_of_expired (ne_idle_of_keyed hkeyed) hexpired,
    State.exitTimed_of_last_element (s := s.countTick) hkeyed hstream, hends, hdelay]
  rfl

/-- The delay after a message lasts its duration and leaves the block at rest (43_tick.md R134, R138). -/
theorem State.CanTime.runTicks_endOfMessageDelay {s : State} {d : Nat} (h : s.CanTime d) :
    runTicks d (s.enter .endOfMessageDelay d) = .next (((s.enter .endOfMessageDelay d).elapse d).rewind 0#16 false) := by
  rw [h.runTicks_exit (by decide), ← h.elapse_exit]
  rfl

/-- Settles O55: one TICK enters the delay after the message, which lasts 7u ticks and then rewinds the block to rest. -/
theorem messageSentOnceComesToRest : Obligations.MessageSentOnceComesToRest := by
  intro s hinv hkeyed hstream hnow hlast hrepeat
  obtain ⟨hreg, -, htimed, -⟩ := s.inv_iff.mp hinv
  obtain ⟨hbusy, -⟩ := htimed (ne_idle_of_keyed hkeyed)
  obtain ⟨-, hhi, -⟩ := hreg.tickW_bounds
  have hend : s.cursor + 1#16 = s.msgLen :=
    BitVec.eq_of_toNat_eq ((half_succ_toNat (m := s.msgLen) (by omega)).trans hlast)
  have hfirst := runTicks_one_of_message_end hkeyed hstream (hreg.expired_countTick hnow) hend hrepeat
  have hunits := hreg.countTick.canTime_units (n := 7) (by decide) (le_refl 7)
  have htime : (s.countTick.passCharacter.respond .ok 0#32).CanTime (7 * s.unit.toNat) := { hunits with }
  constructor
  · intro k hpos hk
    obtain ⟨j, rfl⟩ : ∃ j, k = 1 + j := ⟨k - 1, by omega⟩
    exact ⟨_, (runTicks_add j hfirst).trans (htime.runTicks_enter (by decide) (by omega)), rfl, hbusy, rfl,
      addN_addN hhi _ _ _⟩
  · rw [Nat.add_comm]
    exact ⟨_, (runTicks_add _ hfirst).trans htime.runTicks_endOfMessageDelay, rfl, rfl, rfl, addN_addN hhi _ _ _⟩

section
variable {s : State} {S : KeyerState} {d : Nat} (h : s.CanTime d)
include h

/-- An element with another left is keyed for its duration and followed by its gap (43_tick.md R126, R138). -/
theorem State.CanTime.runTicks_element (hkeyed : S = .dit ∨ S = .dah) (hstream : s.stream ≠ eoc) :
    runTicks d (s.enter S d) = .next (((s.enter S d).elapse d).enter (gapAfter S) s.unit.toNat) := by
  rw [h.runTicks_exit (ne_idle_of_keyed hkeyed), ← h.elapse_exit,
    State.exitTimed_of_element_left (s := ((s.enter S d).elapse (d - 1)).countTick) hkeyed hstream]
  rfl

/-- A gap within a character lasts its duration and is followed by the next element (43_tick.md R128, R138). -/
theorem State.CanTime.runTicks_gap (hgap : S = .ditDelay ∨ S = .dahDelay) (htx : s.txEn = true)
    (hstarted : s.started = true) (hstream : s.stream ≠ eoc) :
    runTicks d (s.enter S d) = .next ((s.enter S d).elapse d).element := by
  have hS : S ≠ .idle := by obtain rfl | rfl := hgap <;> decide
  have hexit : ((s.enter S d).elapse (d - 1)).countTick.exitTimed = ((s.enter S d).elapse (d - 1)).countTick.element :=
    calc ((s.enter S d).elapse (d - 1)).countTick.exitTimed
      _ = ((s.enter S d).elapse (d - 1)).countTick.continueNext :=
        State.exitTimed_of_gap (hgap.imp_right .inl)
      _ = ((s.enter S d).elapse (d - 1)).countTick.decideNext := if_pos htx
      _ = ((s.enter S d).elapse (d - 1)).countTick.element := State.decideNext_of_element_left hstarted hstream
  rw [h.runTicks_exit hS, hexit, ← h.elapse_exit, State.element_eq, State.element_eq]
  rfl

end

/-- Settles O56: the element for its duration, its gap for one unit, and the decision that keys the next element. -/
theorem elementThenGapThenElement : Obligations.ElementThenGapThenElement := by
  intro s S d hinv hS hbusy htx hstarted hstream
  obtain ⟨hreg, -⟩ := s.inv_iff.mp hinv
  obtain ⟨-, hhi, -⟩ := hreg.tickW_bounds
  have hkeyed : S = .dit ∨ S = .dah := hS.imp And.left And.left
  have hunit : s.CanTime s.unit.toNat := by simpa using hreg.canTime_units (n := 1) (by decide) (by decide)
  have htime : s.CanTime d := by
    obtain ⟨-, rfl⟩ | ⟨-, rfl⟩ := hS
    · exact hunit
    · exact hreg.canTime_units (by decide) (by decide)
  have hfirst := htime.runTicks_element hkeyed hstream
  have hgap : ((s.enter S d).elapse d).CanTime s.unit.toNat := { hunit with tick_lt := addN_lt hhi _ _ }
  have hup : (gapAfter S).keyDown = false := by obtain e | e := gapAfter_eq S <;> rw [e] <;> rfl
  have hdown : S.keyDown = true := S.keyDown_iff.mpr (.inr hkeyed)
  have hnext : (if s.stream.getLsbD 7 then KeyerState.dah else .dit).keyDown = true := by split <;> rfl
  refine ⟨fun k hk => ?_, fun k hlow hk => ?_, ?_⟩
  · exact ⟨_, htime.runTicks_enter (ne_idle_of_keyed hkeyed) hk, rfl, Bool.and_eq_true_iff.mpr ⟨hdown, htx⟩⟩
  · obtain ⟨j, rfl⟩ : ∃ j, k = d + j := ⟨k - d, by omega⟩
    have hG : gapAfter S ≠ .idle := fun e => by simpa [e] using gapAfter_eq S
    exact ⟨_, (runTicks_add j hfirst).trans (hgap.runTicks_enter hG (by omega)),
      Bool.and_eq_false_imp.mpr fun hkey => absurd (hup.symm.trans hkey) nofun, rfl⟩
  · refine ⟨_, (runTicks_add _ hfirst).trans (hgap.runTicks_gap (gapAfter_eq S) htx hstarted hstream), ?_⟩
    rw [State.element_eq]
    exact ⟨Bool.and_eq_true_iff.mpr ⟨hnext, htx⟩, rfl, rfl, addN_addN hhi _ _ _⟩

end Sys2Proof.Machine
end

section
/-! SUPPORT. The settings (44_fields.md R155 to R159): what each setter and CONFIGURE answers as a function of the parameters
alone, and that they write settings only. -/
namespace Sys2Proof.Machine

/-! ### The flag setters by their operand (R155 to R157) -/

/-- The operands 0 and 1 are flag values (30_encoding.md R75). -/
theorem flagOperand_of_legal {b : Byte} (h : b = 0#8 ∨ b = 1#8) : flagOperand b = some (decide (b = 1#8)) := by
  obtain rfl | rfl := h <;> rfl

/-- No other operand is a flag value (30_encoding.md R75). -/
theorem flagOperand_of_two_le {b : Byte} (h : 2 ≤ b.toNat) : flagOperand b = none := by
  rw [flagOperand_eq, if_neg (by omega)]

/-- SET_PREAMBLE with an operand that is no flag value (44_fields.md R155). -/
theorem exec_setPreamble_of_not_flag {b : Byte} (hb : flagOperand b = none) (s : State) :
    exec (.setPreamble b) s = .next (s.reject .errBadOperand) := by
  simp only [exec, execSetPreamble, hb]

/-- SET_DUALFREQ with an operand that is no flag value (44_fields.md R156). -/
theorem exec_setDualfreq_of_not_flag {b : Byte} (hb : flagOperand b = none) (s : State) :
    exec (.setDualfreq b) s = .next (s.reject .errBadOperand) := by
  simp only [exec, execSetDualfreq, hb]

/-- SET_TXEN with an operand that is no flag value (44_fields.md R157). -/
theorem exec_setTxen_of_not_flag {b : Byte} (hb : flagOperand b = none) (s : State) :
    exec (.setTxen b) s = .next (s.reject .errBadOperand) := by
  simp only [exec, execSetTxen, hb]

/-! ### What the settings answer and write (R159) -/

/-- The result code of a setter or CONFIGURE, which depends on its operand and the parameters alone (41_configure.md R95;
44_fields.md R155 to R158); none for the other commands. -/
def settingCode (c : Config) : Instr → Option ResultCode
  | .configure w => some (if (unitQuotient c.tickHz w).isSome then .ok else .errInvalidSpeed)
  | .setPreamble b | .setDualfreq b | .setTxen b => some (if (flagOperand b).isSome then .ok else .errBadOperand)
  | .setRepeat _ => some .ok
  | .tick | .send _ | .reset | .read _ | .lookup _ => none

/-- `settingCode` is the code a setter or CONFIGURE answers, with value 0. -/
theorem exec_response_of_setting {i : Instr} {s t : State} {rc : ResultCode} (hi : settingCode s.cfg i = some rc)
    (h : exec i s = .next t) : t.response = some ⟨rc, 0#32⟩ := by
  cases i with
  | configure w =>
    obtain ⟨hq, e⟩ | ⟨q, hq, e⟩ := exec_configure_cases w s <;> cases e.symm.trans h <;>
      simpa [settingCode, hq] using hi
  | setPreamble b =>
    obtain ⟨hb, e⟩ | ⟨v, hb, e⟩ := exec_setPreamble_cases b s <;> cases e.symm.trans h <;>
      simpa [settingCode, hb] using hi
  | setDualfreq b =>
    obtain ⟨hb, e⟩ | ⟨v, hb, e⟩ := exec_setDualfreq_cases b s <;> cases e.symm.trans h <;>
      simpa [settingCode, hb] using hi
  | setTxen b =>
    obtain ⟨hb, e⟩ | ⟨v, hb, e⟩ := exec_setTxen_cases b s <;> cases e.symm.trans h <;>
      simpa [settingCode, hb] using hi
  | setRepeat m =>
    cases h
    cases hi
    rfl
  | tick | send _ | reset | read _ | lookup _ => cases hi

/-- A setter or CONFIGURE writes settings and its answer only: it is neither TICK nor a rewind of the sequencer. -/
theorem exec_settingsOnly_of_setting {i : Instr} {s t : State} {rc : ResultCode} (hi : settingCode s.cfg i = some rc)
    (h : exec i s = .next t) : SettingsOnly i s t := by
  have htick : i ≠ .tick := by rintro rfl; cases hi
  obtain ⟨text, rfl, -⟩ | ⟨rfl, -⟩ | hset := exec_cases_of_ne_tick htick h
  · cases hi
  · cases hi
  · exact hset

/-- Settles O37: a setting writes none of the sequencer's registers, and its answer is `settingCode` of the parameters. -/
theorem settersKeepSequencer : Obligations.SettersKeepSequencer := by
  intro i hi
  have hcode (c : Config) : ∃ rc, settingCode c i = some rc := by
    obtain ⟨b, rfl | rfl | rfl | rfl⟩ | ⟨w, rfl⟩ := hi <;> exact ⟨_, rfl⟩
  refine ⟨fun s t h => ?_, fun s s' t t' hcfg h h' => ?_⟩
  · obtain ⟨rc, hrc⟩ := hcode s.cfg
    rw [(exec_settingsOnly_of_setting hrc h).same]
    exact ⟨rfl, rfl, rfl, rfl, rfl, rfl⟩
  · obtain ⟨rc, hrc⟩ := hcode s.cfg
    rw [exec_response_of_setting hrc h, exec_response_of_setting (hcfg ▸ hrc) h']

/-- Settles O34: the operand is a flag value, which each setter stores. -/
theorem flagSettersWriteTheirFlag : Obligations.FlagSettersWriteTheirFlag := by
  intro s b hb
  have hv := flagOperand_of_legal hb
  exact ⟨exec_setPreamble_of_flag hv s, exec_setDualfreq_of_flag hv s, exec_setTxen_of_flag hv s⟩

/-- Settles O35: the operand is no flag value, and each setter rejects it. -/
theorem flagSettersRejectOtherOperands : Obligations.FlagSettersRejectOtherOperands := by
  intro s b hb
  have hnone := flagOperand_of_two_le hb
  exact ⟨exec_setPreamble_of_not_flag hnone s, exec_setDualfreq_of_not_flag hnone s, exec_setTxen_of_not_flag hnone s⟩

/-- Settles O36: SET_REPEAT checks nothing. -/
theorem setRepeatStoresMinutes : Obligations.SetRepeatStoresMinutes := fun s m => exec_setRepeat m s

end Sys2Proof.Machine
end

section
/-! SUPPORT. READ (44_fields.md R160 to R164): the registers by number, and the bits of the two packed registers. -/
namespace Sys2Proof.Machine

/-- The readable registers in the order of their numbers (44_fields.md R163). -/
def registers : List RegName :=
  [.status, .tick, .charsSent, .unit, .wpm, .repeatMin, .cursor, .msgLen, .endTick, .stream]

/-- A register operand is the register's number (44_fields.md R163). -/
theorem RegName.ofByte_eq_getElem? : ∀ r : Byte, RegName.ofByte r = registers[r.toNat]? := by decide

/-- The response to READ, given the register's value if there is one (44_fields.md R160). -/
def readResponse : Option Word → Response
  | some v => ⟨.ok, v⟩
  | none => ⟨.errBadOperand, 0#32⟩

/-- READ looks its number up among the register values and writes nothing but its answer (44_fields.md R160). -/
theorem exec_read (r : Byte) (s : State) :
    exec (.read r) s = .next { s with response := some (readResponse (registers.map s.regval)[r.toNat]?) } := by
  rw [List.getElem?_map, ← RegName.ofByte_eq_getElem?]
  obtain ⟨hr, e⟩ | ⟨reg, hr, e⟩ := exec_read_cases r s <;> rw [e, hr] <;> rfl

/-- Settles O38: the listed values are those of `registers`. -/
theorem readAnswersRegister : Obligations.ReadAnswersRegister := fun s r => exec_read r s

/-- Bits 11:8 of STATUS are STATE: the eight fields below it are a bit wide each (44_fields.md R162). -/
theorem State.statusWord_extract_state (s : State) : s.statusWord.extractLsb' 8 4 = s.state.code := by
  simp (disch := omega) only [State.statusWord, BitVec.extractLsb'_append_eq_of_le, BitVec.extractLsb'_append_eq_of_add_le]
  exact BitVec.extractLsb'_eq_self

/-- Bits 31:12 of STATUS read 0 (44_fields.md R162). -/
theorem State.statusWord_getLsbD_of_le (s : State) {k : Nat} (hk : 12 ≤ k) : s.statusWord.getLsbD k = false := by
  simp (disch := omega) only [State.statusWord, BitVec.getLsbD_append, if_neg, BitVec.getLsbD_zero]

/-- Settles O39: the fields are joined from bit 0 up, so each bit is found by skipping the fields below it. -/
theorem statusFields : Obligations.StatusFields := by
  refine ⟨fun s => ⟨?_, ?_, ?_, ?_, ?_, ?_, ?_, ?_, s.statusWord_extract_state, fun _ => s.statusWord_getLsbD_of_le⟩,
    by decide⟩
  all_goals
    simp only [State.statusWord, BitVec.getLsbD_append, BitVec.getLsbD_ofBool]
    simp

/-- Settles O40: the stream, STARTED and the zeros, joined from bit 0 up; 0x5F less its leading element is 0xBF. -/
theorem streamRegisterFields : Obligations.StreamRegisterFields := by
  refine ⟨fun s => ⟨?_, ?_, fun k hk => ?_⟩, fun s hstream hstarted => ?_⟩
  · rw [State.streamWord, BitVec.extractLsb'_append_eq_of_add_le (Nat.le_refl 8), BitVec.extractLsb'_eq_self]
  · simp only [State.streamWord, BitVec.getLsbD_append, BitVec.getLsbD_ofBool]
    simp
  · simp (disch := omega) only [State.streamWord, BitVec.getLsbD_append, if_neg, BitVec.getLsbD_zero]
  · rw [State.streamWord, hstream, hstarted]
    rfl

end Sys2Proof.Machine
end

section
/-! SUPPORT. Result codes and errors (60_exceptions.md R171 to R173): a frame that is no command, the priority order on the
frame of a command, and every command as accepted or turned away by the check on its operands. -/
namespace Sys2Proof

/-- The decoder of every format rejects as malformed only (30_encoding.md R73). -/
theorem decode_error_of_opcode {op : Byte} {o : Opcode} (ho : Opcode.ofByte op = some o) {body : List Byte}
    {e : DecodeError} (h : decode (op :: body) = .error e) : e = .malformed := by
  have hN (i : Instr) : decodeN i body = .error e → e = .malformed := by
    fun_cases decodeN <;> simp +contextual [eq_comm]
  have hB (mk : Byte → Instr) : decodeB mk body = .error e → e = .malformed := by
    fun_cases decodeB <;> simp +contextual [eq_comm]
  have hW (mk : Word → Instr) : decodeW mk body = .error e → e = .malformed := by
    fun_cases decodeW <;> simp +contextual [eq_comm]
  have hS (mk : List Byte → Instr) : decodeS mk body = .error e → e = .malformed := by
    fun_cases decodeS <;> simp +contextual [eq_comm]
  rw [decode_of_opcode ho] at h
  cases o with
  | tick | reset => exact hN _ h
  | configure => exact hW _ h
  | send => exact hS _ h
  | setPreamble | setDualfreq | setTxen | setRepeat | read | lookup => exact hB _ h

/-- The frames rejected by their opcode are the reserved bytes, each alone (60_exceptions.md R172). -/
theorem decode_eq_reservedOpcode_iff {f : List Byte} {op : Byte} :
    decode f = .error (.reservedOpcode op) ↔ f = [op] ∧ Opcode.ofByte op = none := by
  constructor
  · intro h
    cases f with
    | nil => cases h
    | cons b body =>
      cases ho : Opcode.ofByte b with
      | none =>
        rw [decode_of_reserved ho] at h
        split_ifs at h with hbody <;> cases h
        exact ⟨by rw [hbody], ho⟩
      | some o => cases decode_error_of_opcode ho h
  · rintro ⟨rfl, ho⟩
    rw [decode_of_reserved ho, if_pos rfl]

end Sys2Proof

namespace Sys2Proof.Machine

/-! ### A reserved opcode (R172) -/

/-- Settles O7: the decoder rejects a reserved opcode as itself when it is alone and as malformed when it is not, and the
step only answers. -/
theorem reservedOpcodesRejected : Obligations.ReservedOpcodesRejected := by
  intro s c rest op body hs hf hop
  have hd : decode c.frame = .error (if body = [] then .reservedOpcode op else .malformed) := by
    rw [hf, decode_of_reserved (Opcode.ofByte_eq_none.mpr hop)]
  rw [step_of_decode_error hs hd, apply_ite rejectionCode]
  rfl

/-! ### The check on a command's operands, the last five lines of R173 -/

/-- The check on a command's operands by the decoder of each (30_encoding.md R75; 60_exceptions.md R173). -/
def operandCheck (c : Config) : Instr → ResultCode
  | .tick | .reset | .setRepeat _ => .ok
  | .configure w => if unitQuotient c.tickHz w = none then .errInvalidSpeed else .ok
  | .send text => if c.msgCap < text.length then .errTooLong else .ok
  | .setPreamble b | .setDualfreq b | .setTxen b => if flagOperand b = none then .errBadOperand else .ok
  | .read r => if RegName.ofByte r = none then .errBadOperand else .ok
  | .lookup ch => if lookupCode c.codeTable ch = .notEncodable then .notEncodable else .ok

/-- An operand above 1 is no flag value (30_encoding.md R75). -/
theorem flagOperand_eq_none {b : Byte} : flagOperand b = none ↔ 1 < b.toNat := by
  simp [flagOperand_eq]

/-- A number above 9 names no register (44_fields.md R163). -/
theorem RegName.ofByte_eq_none {r : Byte} : RegName.ofByte r = none ↔ 9 < r.toNat := by
  rw [RegName.ofByte_eq_getElem?, List.getElem?_eq_none_iff]
  exact Iff.rfl

/-- `operandCheck` is the check that the priority order makes on the bytes of the command's frame (60_exceptions.md R173). -/
theorem checkOperands_frame (c : Config) (i : Instr) :
    checkOperands c i.opcode.byte i.operandBytes = operandCheck c i := by
  cases i with
  | tick | reset | setRepeat m => rfl
  | configure w =>
    simp [checkOperands, operandCheck, Instr.opcode, Opcode.byte, Instr.operandBytes, wordOfBytes_byteOfWord]
  | setPreamble b | setDualfreq b | setTxen b =>
    simp [checkOperands, operandCheck, Instr.opcode, Opcode.byte, Instr.operandBytes, flagOperand_eq_none]
  | read r => simp [checkOperands, operandCheck, Instr.opcode, Opcode.byte, Instr.operandBytes, RegName.ofByte_eq_none]
  | send text | lookup ch => simp [checkOperands, operandCheck, Instr.opcode, Opcode.byte, Instr.operandBytes]

/-- A command that passes the check answers OK, and any other answers the check's code and does nothing else
(60_exceptions.md R171, R173). -/
theorem exec_accepted_or_rejected (i : Instr) (s : State) :
    (operandCheck s.cfg i = .ok ∧ ∃ (u : State) (v : Word), exec i s = .next (u.respond .ok v)) ∨
      ∃ rc, rc ≠ .ok ∧ operandCheck s.cfg i = rc ∧ exec i s = .next (s.reject rc) := by
  cases i with
  | tick => exact .inl ⟨rfl, _, _, exec_tick s⟩
  | reset => exact .inl ⟨rfl, _, _, exec_reset s⟩
  | setRepeat m => exact .inl ⟨rfl, _, _, exec_setRepeat m s⟩
  | configure w =>
    obtain ⟨hq, e⟩ | ⟨q, hq, e⟩ := exec_configure_cases w s
    · exact .inr ⟨_, by decide, if_pos hq, e⟩
    · exact .inl ⟨if_neg (by simp [hq]), _, _, e⟩
  | send text =>
    obtain ⟨hlen, e⟩ | ⟨hlen, e⟩ := exec_send_cases text s
    · exact .inr ⟨_, by decide, if_pos hlen, e⟩
    · exact .inl ⟨if_neg hlen.not_gt, _, _, e⟩
  | setPreamble b =>
    obtain ⟨hb, e⟩ | ⟨v, hb, e⟩ := exec_setPreamble_cases b s
    · exact .inr ⟨_, by decide, if_pos hb, e⟩
    · exact .inl ⟨if_neg (by simp [hb]), _, _, e⟩
  | setDualfreq b =>
    obtain ⟨hb, e⟩ | ⟨v, hb, e⟩ := exec_setDualfreq_cases b s
    · exact .inr ⟨_, by decide, if_pos hb, e⟩
    · exact .inl ⟨if_neg (by simp [hb]), _, _, e⟩
  | setTxen b =>
    obtain ⟨hb, e⟩ | ⟨v, hb, e⟩ := exec_setTxen_cases b s
    · exact .inr ⟨_, by decide, if_pos hb, e⟩
    · exact .inl ⟨if_neg (by simp [hb]), _, _, e⟩
  | read r =>
    obtain ⟨hr, e⟩ | ⟨reg, hr, e⟩ := exec_read_cases r s
    · exact .inr ⟨_, by decide, if_pos hr, e⟩
    · exact .inl ⟨if_neg (by simp [hr]), _, _, e⟩
  | lookup ch =>
    obtain ⟨d, hl, e⟩ | ⟨hl, e⟩ | ⟨hl, e⟩ := exec_lookup_cases ch s
    · exact .inl ⟨if_neg (ne_of_eq_of_ne hl (by simp)), _, _, e⟩
    · exact .inl ⟨if_neg (ne_of_eq_of_ne hl (by simp)), _, _, e⟩
    · exact .inr ⟨_, by decide, if_pos hl, e⟩

/-! ### The priority order (R173) -/

/-- A wrong length comes first (60_exceptions.md R173). -/
theorem checkFrame_of_length_ne (c : Config) {f : List Byte} (h : expectedLength f ≠ some f.length) :
    checkFrame c f = .errFrame := by
  cases f with
  | nil => rfl
  | cons op body => exact if_pos h

/-- A reserved opcode comes second (60_exceptions.md R173). -/
theorem checkFrame_of_reserved (c : Config) {op : Byte} (h : Opcode.ofByte op = none) :
    checkFrame c [op] = .errIllegalOpcode :=
  (if_neg (not_not.mpr (expectedLength_of_reserved h []))).trans (if_pos (Opcode.ofByte_eq_none.mp h))

/-- A frame that is no command gets the code of the decoder's rejection (60_exceptions.md R173). -/
theorem checkFrame_of_decode_error (c : Config) {f : List Byte} {e : DecodeError} (h : decode f = .error e) :
    checkFrame c f = rejectionCode e := by
  cases e with
  | malformed => exact checkFrame_of_length_ne c ((decode_eq_malformed_iff f).mp h)
  | reservedOpcode op =>
    obtain ⟨rfl, ho⟩ := decode_eq_reservedOpcode_iff.mp h
    exact checkFrame_of_reserved c ho

/-- A frame that is a command gets the code of the check on its operands (60_exceptions.md R173). -/
theorem checkFrame_of_decode_ok (c : Config) {f : List Byte} {i : Instr} (h : decode f = .ok i) :
    checkFrame c f = operandCheck c i := by
  have hlen : expectedLength f = some f.length := by
    by_contra hne
    cases h.symm.trans ((decode_eq_malformed_iff f).mpr hne)
  obtain ⟨rfl, -⟩ := encode_of_decode_ok h
  have hop : ¬ (i.opcode.byte = 0x00#8 ∨ 0x0B ≤ i.opcode.byte.toNat) := by
    simp [← Opcode.ofByte_eq_none]
  rw [← checkOperands_frame]
  exact (if_neg (not_not.mpr hlen)).trans (if_neg hop)

/-- Settles O8: the order's first two checks are the decoder's rejections, and its last five are the command's own. -/
theorem responseIsFirstFailedCheck : Obligations.ResponseIsFirstFailedCheck := by
  intro s c rest hs
  cases hd : decode c.frame with
  | error e =>
    rw [checkFrame_of_decode_error s.cfg hd]
    exact ⟨_, _, step_of_decode_error hs hd, rfl⟩
  | ok i =>
    rw [checkFrame_of_decode_ok s.cfg hd, step_of_decode_ok hs hd, ← State.accept_cfg s c rest]
    obtain ⟨hok, u, v, e⟩ | ⟨rc, -, hrc, e⟩ := exec_accepted_or_rejected i (s.accept c rest)
    · exact ⟨_, v, e, by rw [hok]; rfl⟩
    · exact ⟨_, _, e, by rw [hrc]; rfl⟩

/-! ### A rejection (R171) -/

/-- A step that answers any code but OK takes its frame from the stream and only answers (60_exceptions.md R171). -/
theorem step_eq_reject_of_rc_ne_ok {s t : State} {c : Command} {rest : List Command} {rc : ResultCode} {v : Word}
    (hs : s.commands = c :: rest) (h : step s = .next t) (hresp : t.response = some ⟨rc, v⟩) (hrc : rc ≠ .ok) :
    v = 0#32 ∧ t = (s.accept c rest).reject rc := by
  cases hd : decode c.frame with
  | error e =>
    cases (step_of_decode_error hs hd).symm.trans h
    cases hresp
    exact ⟨rfl, rfl⟩
  | ok i =>
    have hexec := (step_of_decode_ok hs hd).symm.trans h
    obtain ⟨-, u, w, e⟩ | ⟨code, -, -, e⟩ := exec_accepted_or_rejected i (s.accept c rest) <;>
      cases e.symm.trans hexec <;> cases hresp
    · exact absurd rfl hrc
    · exact ⟨rfl, rfl⟩

/-- Settles O9: the outputs read none of the stream, the issuer and the response, which is all that a rejection writes. -/
theorem rejectionChangesNothing : Obligations.RejectionChangesNothing := by
  intro s t c rest rc v hs h hresp hrc
  obtain ⟨hv, rfl⟩ := step_eq_reject_of_rc_ne_ok hs h hresp hrc
  exact ⟨hv, rfl, rfl, rfl, rfl, step_eq_next _⟩

end Sys2Proof.Machine
end
